-- ==== Sys2Proof/Word.lean ====
section
/-! DEFINITION. The word types of the MaCAN crypto-codec block (spec/00_scope.md section 5): bytes, 32-bit
register words, 16-byte cipher blocks and 8-byte key-wrap semiblocks. -/

namespace Sys2Proof

/-- One byte of a byte string (spec/00_scope.md section 5, "Byte strings"). -/
abbrev Byte := BitVec 8

/-- One 32-bit register of the window (spec/10_state.md section 1). -/
abbrev Word := BitVec 32

/-- A 16-byte AES block, read big-endian as RFC 4493 and RFC 3394 read it (R1, R4): byte `X[0]` is bits
`[127:120]`. -/
abbrev Block := BitVec 128

/-- An 8-byte half of a block, the registers `A` and `R[i]` of the key-wrap algorithms (R139, R140), read
big-endian. -/
abbrev Semiblock := BitVec 64

end Sys2Proof
end

