-- ==== Sys2Proof/Syntax.lean ====
section
/-! DEFINITION. The syntax of the block, whole: the commands (spec/opcode_table.json, one constructor a row), the
fields of a command word (R80), the registers of the window (spec/10_state.md section 1), and the accesses a host makes
to it (R61, R62, R65, R85). -/

namespace Sys2Proof

/-- The commands: one constructor for each row of spec/opcode_table.json (R81). A command has no operand fields: every
operand is a register named by the opcode (R80). The primed reading of the flag F is a constructor of its own
(VERIFY.W, ENCCH.N, ENCAREQ.M, ENCTIME.M, DECCRYPT.K; R82). -/
inductive Instr where
  | nop
  | cmac
  | sign
  | verify
  | verifyW
  | gensub
  | wrap
  | unwrap
  | unwrapr
  | encrq
  | encch
  | encchN
  | encfrag
  | encack
  | encsig16
  | encareq
  | encareqM
  | encsig32
  | encplain
  | enctime
  | enctimeM
  | deccrypt
  | deccryptK
  | decsig32
  | decplain
  | dectime
  | fragst
  | rclr
  | ptsig16
  | ptsig32
  | ptack
  | ptareq
  | pttime
  | ptskey
deriving DecidableEq, Repr

/-- The three fields of a command word: `OPC = w[7:0]`, `F = w[8]`, `RSV = w[31:9]` (R80). -/
structure CommandFields where
  opc : BitVec 8
  f : Bool
  rsv : BitVec 23
deriving DecidableEq, Repr

/-- The registers of the window, by the names of spec/10_state.md section 1. -/
inductive Reg where
  | id | ctrl | status | cmd | nodeCnt | txid | time | len | tpos
  | fType | fDst | fSrc | fFwd | fFrag | fSignum | fPresc | fValue | fMask | fTime | fCanid
  | fNonce0 | fNonce1 | tag
  | key (i : Fin 6)
  | mac (i : Fin 4)
  | frameId | frameDlc
  | frameD (i : Fin 2)
  | buf (i : Fin 16)
  | reasm (i : Fin 8)
deriving DecidableEq, Repr

/-- The widths a bus access can have: 8, 16 and 32 bits, and `wider`, any access of more than 32 bits. Only `word` is
accepted by the window (R65). That a bus can carry a wider access at all, and that it falls into the window by its
address, is DEDUCED from R269's words, which except no width (log entry 15). -/
inductive AccessWidth where
  | byte
  | half
  | word
  | wider
deriving DecidableEq, Repr

/-- What a host access does: a read, or a write of a value. Of a write of more than 32 bits only the low 32 are kept: it
is refused whatever it writes (R65). -/
inductive BusOp where
  | read
  | write (v : Word)
deriving DecidableEq, Repr

/-- One host access: its bus address, its width and what it does (R61, R62, R65). -/
structure HostAccess where
  addr : Nat
  width : AccessWidth
  op : BusOp
deriving DecidableEq, Repr

/-- What can reach the block from outside: a host access, the platform's reset input (R290), or the host's loop `wait`,
which makes one read of STATUS a step until the read shows BUSY = 0 (R86). -/
inductive HostEvent where
  | access (a : HostAccess)
  | resetInput
  | wait
deriving DecidableEq, Repr

/-- What the bus answered to the host's last access: nothing yet, the value of a read, the acceptance of a write, or a
bus error (R61, R62, R65). -/
inductive BusAnswer where
  | none
  | data (v : Word)
  | written
  | busError
deriving DecidableEq, Repr

/-- The error codes of STATUS.ERRCODE, by name (R260). -/
inductive ErrorCode where
  | ok
  | illegal
  | keylen
  | badlen
  | range
  | malformed
  | incomplete
  | icv
deriving DecidableEq, Repr

/-- The formats a decoder reports in STATUS.KIND, by name (R98). -/
inductive Kind where
  | none
  | reqchal
  | chal
  | chalNonce
  | frag
  | ack
  | sig16
  | areq
  | areqMac
  | sig32
  | plain
  | time
  | timeMac
deriving DecidableEq, Repr

end Sys2Proof
end

