-- ==== Sys2Proof/Machine/State.lean ====
section
/-! DEFINITION. The state of the machine: every register of spec/10_state.md section 1, the hidden PENDING (R48), and
the model's own fields that stand for the host outside the block; and the state after reset (R291). Register fields
have exactly the width the spec gives them, so that reserved bits have nowhere to be stored. -/

namespace Sys2Proof.Machine

/-- The byte-array registers of the window (R5): a list of (window offset, byte) in one canonical form, the offsets
strictly rising and no entry equal to what an unlisted offset reads as. KEY lies at 0x080 to 0x097, MAC at 0x0A0 to
0x0AF, FRAME_D at 0x0B8 to 0x0BF, BUF at 0x100 to 0x13F, REASM at 0x140 to 0x15F: the offsets of
spec/10_state.md section 1, byte `A[4i+k]` at the offset of word `i` plus `k`, which is the packing of R5. -/
abbrev Memory := List Host.Cell

/-- What an unlisted byte reads as: 0, the reset value of every byte-array register (R291). -/
def Memory.unlisted : Byte := 0

/-- The canonical form: offsets strictly rising, no entry at the unlisted value. -/
abbrev Memory.wf (m : Memory) : Prop :=
  m.Pairwise (fun c d => c.1 < d.1) ∧ ∀ c ∈ m, c.2 ≠ Memory.unlisted

/-- A CAN identifier as TXID, FRAME_ID and F_CANID hold it: EXT in bit 31, the identifier in bits `[28:0]`; bits
`[30:29]` read 0 and are not stored (R35). -/
structure CanId where
  ext : Bool
  ident : BitVec 29
deriving DecidableEq, Repr

/-- The whole machine. The first group is the block's, as R20 lists it; the second is the model's own. -/
structure State where
  /-- CTRL.IE, the interrupt enable (R22). -/
  ie : Bool
  /-- CTRL.KLEN, the key length code (R22). -/
  klen : BitVec 2
  /-- STATUS.BUSY (R23). -/
  busy : Bool
  /-- STATUS.DONE (R23). -/
  done : Bool
  /-- STATUS.MATCH (R23). -/
  matched : Bool
  /-- STATUS.MOFS (R23). -/
  mofs : BitVec 2
  /-- STATUS.BUSYERR (R23). -/
  busyErr : Bool
  /-- STATUS.ERRCODE (R23); STATUS.ERR is computed from it. -/
  errCode : BitVec 8
  /-- STATUS.RMAP (R23, R39); STATUS.RFULL is computed from it. -/
  rmap : BitVec 6
  /-- STATUS.KIND (R23). -/
  kind : BitVec 4
  /-- The hidden PENDING: the command word in flight, meaningful only while BUSY = 1 (R48). What it holds while BUSY = 0
  the spec leaves at any value; the model holds 0 after reset and keeps the word after a completion (DESIGN CHOICE,
  log entry 1). -/
  pending : Word
  /-- NODECNT (R25). -/
  nodeCnt : BitVec 7
  /-- TXID (R26). -/
  txid : CanId
  /-- TIME (R27). -/
  time : Word
  /-- LEN (R28). -/
  len : BitVec 7
  /-- TPOS (R29). -/
  tpos : BitVec 6
  /-- F_TYPE (R30). -/
  fType : BitVec 2
  /-- F_DST (R31). -/
  fDst : Byte
  /-- F_SRC (R31). -/
  fSrc : Byte
  /-- F_FWD (R31). -/
  fFwd : Byte
  /-- F_FRAG: SEQ in bits `[7:4]`, FLEN in bits `[3:0]` (R40). -/
  fFrag : Byte
  /-- F_SIGNUM (R41). -/
  fSignum : Byte
  /-- F_PRESC (R41). -/
  fPresc : Byte
  /-- F_VALUE (R42). -/
  fValue : Word
  /-- F_MASK (R43). -/
  fMask : BitVec 24
  /-- F_TIME (R44). -/
  fTime : Word
  /-- F_CANID (R45). -/
  fCanid : CanId
  /-- F_NONCE0 (R46). -/
  fNonce0 : Word
  /-- F_NONCE1 (R46). -/
  fNonce1 : BitVec 16
  /-- TAG (R47). -/
  tag : Word
  /-- FRAME_ID (R35). -/
  frameId : CanId
  /-- FRAME_DLC (R36). -/
  frameDlc : BitVec 4
  /-- KEY (R32), MAC (R34), FRAME_D (R37), BUF (R38) and REASM (R39), byte by byte. -/
  mem : Memory
  /-- The model's own: what reaches the block from outside, in the order it is performed (R70): accesses, resets, and the
  host's `wait` loops (R86). -/
  inputs : List HostEvent
  /-- The model's own: the steps still to pass before the command in flight completes (R3). -/
  latency : Nat
  /-- The model's own: how many commands have been issued, the index of `Config.cmdLatency`. -/
  issued : Nat
  /-- The model's own: how many unspecified values have been read, the index of `Config.busyRead` (R117). -/
  draws : Nat
  /-- The model's own: what the bus answered to the host's last access (R61, R62, R65). -/
  answer : BusAnswer
deriving DecidableEq, Repr

/-- Why a run of the model stops. -/
inductive Fault where
  /-- Raised by the step when the host's next access lies outside the 0x200-byte window at BASE: the block has no such
  address (R2, R60), so what answers there is the platform's. Safe: the model stops where the platform goes on, and the
  block itself is not touched by such an access. -/
  | outsideWindow (addr : Nat)
deriving DecidableEq, Repr

/-- Why the model has no meaning for an instruction. -/
inductive Refusal where
  /-- Raised by the dispatch of an instruction without a meaning. No instruction is left so. Safe: the model stops. -/
  | notModelled (mnemonic : String)
deriving DecidableEq, Repr

/-- A CAN identifier register at its reset value, 0 (R291). -/
def CanId.zero : CanId := { ext := false, ident := 0 }

/-- The machine right after reset (R291). PENDING's value is irrelevant while BUSY = 0 (R48; log entry 1); the last five fields are
the model's own: nothing has reached the block, nothing is in flight, nothing has been drawn. -/
def State.reset : State where
  ie := false
  klen := 0
  busy := false
  done := false
  matched := false
  mofs := 0
  busyErr := false
  errCode := 0
  rmap := 0
  kind := 0
  pending := 0
  nodeCnt := 64
  txid := CanId.zero
  time := 0
  len := 0
  tpos := 0
  fType := 0
  fDst := 0
  fSrc := 0
  fFwd := 0
  fFrag := 0
  fSignum := 0
  fPresc := 0
  fValue := 0
  fMask := 0
  fTime := 0
  fCanid := CanId.zero
  fNonce0 := 0
  fNonce1 := 0
  tag := 0
  frameId := CanId.zero
  frameDlc := 0
  mem := []
  inputs := []
  latency := 0
  issued := 0
  draws := 0
  answer := BusAnswer.none

end Sys2Proof.Machine
end

