-- ==== Sys2Proof/WellFormed.lean ====
section
/-! DEFINITION. What a legal command word and an accepted host access look like: the three checks of R80, from the
list of reserved encodings R83 gives, and the check of R65. The opcode map itself (R81) is in Decode.lean; that the
two agree is a statement. -/

namespace Sys2Proof

/-- The opcode is none of those R83 reserves: 0x08 to 0x0F, 0x19 to 0x1F, 0x26 to 0x2F, 0x36 to 0xFF. -/
def opcodeAssigned (o : BitVec 8) : Bool :=
  let n := o.toNat
  !((0x08 ≤ n && n ≤ 0x0F) || (0x19 ≤ n && n ≤ 0x1F) || (0x26 ≤ n && n ≤ 0x2F) || 0x36 ≤ n)

/-- The opcode defines the flag F: VERIFY, ENCCH, ENCAREQ, ENCTIME and DECCRYPT, "five opcodes only" (R82). -/
def flagDefined (o : BitVec 8) : Bool :=
  o == 0x03 || o == 0x11 || o == 0x15 || o == 0x18 || o == 0x20

/-- The reserved bits of the word are 0 (R80). -/
def CommandFields.reservedClear (c : CommandFields) : Bool := c.rsv == 0

/-- F is 0, or the opcode defines a flag (R80). -/
def CommandFields.flagAllowed (c : CommandFields) : Bool := !c.f || flagDefined c.opc

/-- The word names a command (R80): the three checks together. -/
def CommandFields.legal (c : CommandFields) : Bool :=
  c.reservedClear && opcodeAssigned c.opc && c.flagAllowed

/-- The access is one the window accepts: 32 bits wide and naturally aligned (R65). -/
def HostAccess.accepted (a : HostAccess) : Bool :=
  a.width == AccessWidth.word && a.addr % 4 == 0

end Sys2Proof
end

