-- ==== Sys2Proof/Decode.lean ====
section
/-! DEFINITION. Decoding and encoding of command words (spec/30_encoding.md part A). The decoder reads the opcode map
of R81; the encoder is written from the words of spec/opcode_table.json, so that the two can be held against each
other. -/

namespace Sys2Proof

/-- Why a word names no command (R80, R83). Each of them completes with the error ILLEGAL (R261). -/
inductive DecodeError where
  /-- A bit of `[31:9]` is set. -/
  | reservedBits
  /-- The opcode is not in the table of R81. -/
  | reservedOpcode
  /-- F = 1 for an opcode that defines no flag. -/
  | flagNotDefined
deriving DecidableEq, Repr

/-- The fields of a command word (R80). -/
def commandFields (w : Word) : CommandFields where
  opc := w.extractLsb' 0 8
  f := w.getLsbD 8
  rsv := w.extractLsb' 9 23

/-- One row of the opcode map (R81): the opcode, its command with F = 0, and its command with F = 1 where it defines
the flag. -/
structure OpcodeRow where
  opc : BitVec 8
  plain : Instr
  flagged : Option Instr
deriving DecidableEq, Repr

/-- The opcode map (R81). -/
def opcodeMap : List OpcodeRow :=
  [⟨0x00, .nop, none⟩, ⟨0x01, .cmac, none⟩, ⟨0x02, .sign, none⟩, ⟨0x03, .verify, some .verifyW⟩,
   ⟨0x04, .gensub, none⟩, ⟨0x05, .wrap, none⟩, ⟨0x06, .unwrap, none⟩, ⟨0x07, .unwrapr, none⟩,
   ⟨0x10, .encrq, none⟩, ⟨0x11, .encch, some .encchN⟩, ⟨0x12, .encfrag, none⟩, ⟨0x13, .encack, none⟩,
   ⟨0x14, .encsig16, none⟩, ⟨0x15, .encareq, some .encareqM⟩, ⟨0x16, .encsig32, none⟩,
   ⟨0x17, .encplain, none⟩, ⟨0x18, .enctime, some .enctimeM⟩,
   ⟨0x20, .deccrypt, some .deccryptK⟩, ⟨0x21, .decsig32, none⟩, ⟨0x22, .decplain, none⟩,
   ⟨0x23, .dectime, none⟩, ⟨0x24, .fragst, none⟩, ⟨0x25, .rclr, none⟩,
   ⟨0x30, .ptsig16, none⟩, ⟨0x31, .ptsig32, none⟩, ⟨0x32, .ptack, none⟩, ⟨0x33, .ptareq, none⟩,
   ⟨0x34, .pttime, none⟩, ⟨0x35, .ptskey, none⟩]

/-- The row of an opcode, if it has one. -/
def opcodeRow (o : BitVec 8) : Option OpcodeRow :=
  opcodeMap.find? fun r => r.opc == o

/-- The command a word names, or why it names none (R80, R83). -/
def decode (w : Word) : Except DecodeError Instr :=
  let c := commandFields w
  if c.reservedClear then
    match opcodeRow c.opc with
    | none => .error .reservedOpcode
    | some r =>
      if c.f then
        match r.flagged with
        | none => .error .flagNotDefined
        | some i => .ok i
      else .ok r.plain
  else .error .reservedBits

/-- The word of a command, as the rows of spec/opcode_table.json give it. -/
def encode : Instr → Word
  | .nop => 0x00000000
  | .cmac => 0x00000001
  | .sign => 0x00000002
  | .verify => 0x00000003
  | .verifyW => 0x00000103
  | .gensub => 0x00000004
  | .wrap => 0x00000005
  | .unwrap => 0x00000006
  | .unwrapr => 0x00000007
  | .encrq => 0x00000010
  | .encch => 0x00000011
  | .encchN => 0x00000111
  | .encfrag => 0x00000012
  | .encack => 0x00000013
  | .encsig16 => 0x00000014
  | .encareq => 0x00000015
  | .encareqM => 0x00000115
  | .encsig32 => 0x00000016
  | .encplain => 0x00000017
  | .enctime => 0x00000018
  | .enctimeM => 0x00000118
  | .deccrypt => 0x00000020
  | .deccryptK => 0x00000120
  | .decsig32 => 0x00000021
  | .decplain => 0x00000022
  | .dectime => 0x00000023
  | .fragst => 0x00000024
  | .rclr => 0x00000025
  | .ptsig16 => 0x00000030
  | .ptsig32 => 0x00000031
  | .ptack => 0x00000032
  | .ptareq => 0x00000033
  | .pttime => 0x00000034
  | .ptskey => 0x00000035

/-- A command is well formed when its word is legal; a command has no operands that could be ill formed (R80). -/
def Instr.wf (i : Instr) : Bool := (commandFields (encode i)).legal

/-- The command the decoder reads from the low `nbits` bits of `w`, the bits above them being 0. A command is exactly
one 32-bit word (R84). -/
def decodeTableWord (nbits w : Nat) : Option Instr :=
  (decode (BitVec.ofNat 32 (w % 2 ^ nbits))).toOption

end Sys2Proof
end

