-- ==== Sys2Proof/Config.lean ====
section
/-! DEFINITION. What the spec leaves to the implementation or the platform, as constants without a body
(spec/93_implementation_defined.md section 2): the base address, the command latency, the AES primitive and the
unspecified value of a read made while the block is busy. Nothing in Lean can evaluate them, so a claim about the
model holds whatever they are. -/

namespace Sys2Proof

/-- A key of the AES primitive: "a key of 16 or 24 bytes" (R1), the bytes read big-endian, `K[0]` first. -/
inductive AesKey where
  | aes128 (k : BitVec 128)
  | aes192 (k : BitVec 192)
deriving DecidableEq, Repr

/-- The block cipher as the two total functions every rule of the spec reaches it through (R1). -/
structure Cipher where
  /-- `AES_Enc(K, X)`. -/
  enc : AesKey → Block → Block
  /-- `AES_Dec(K, X)`. -/
  dec : AesKey → Block → Block

/-- The number of the 0x200-byte page the register window lies in: `BASE` is an open parameter, 0x200-aligned
(R2, D2). -/
opaque Config.baseIndex : Nat

/-- `BASE`, the address of the register window (R2). -/
def Config.base : Nat := 0x200 * Config.baseIndex

/-- The AES primitive under each key: SOME permutation of the blocks. That, and nothing else, is what R1 lets a model
assume: `AES_Enc(K, ·)` and `AES_Dec(K, ·)` are total and inverse to each other. -/
opaque Config.aes : AesKey → Equiv.Perm Block

/-- `AES_Enc` and `AES_Dec` of the block (R1). -/
def Config.cipher : Cipher where
  enc k x := Config.aes k x
  dec k x := (Config.aes k).symm x

/-- `CMD_LATENCY` (R3): how many steps of the run lie between the issue of the `n`-th command and its completion
step. Always finite, otherwise free: the completion step may come at any later point, and comes eventually. That it
depends on nothing but the count of issued commands, neither on the command word nor on what the registers hold, KEY
among them, is the model's choice (DESIGN CHOICE, log entry 16). -/
opaque Config.cmdLatency : Nat → Nat

/-- The unspecified value of the `n`-th read, made while BUSY = 1, of something other than ID, CTRL and STATUS: "a free
value under no law" (R117). That it depends on nothing but the count of such reads, neither on what the block holds nor
on the offset read, is the model's choice (DESIGN CHOICE, log entry 14). -/
opaque Config.busyRead : Nat → Word

end Sys2Proof
end

