-- ==== Sys2Proof/Machine/Bytes.lean ====
section
/-! DEFINITION. Conversions between integers and byte strings (R4) and slices of byte strings
(spec/00_scope.md section 5). -/

namespace Sys2Proof.Machine

/-- `LE_n(v)`: the `n`-byte string whose byte `i` is `v[8i+7:8i]` (R4). -/
def leBytes : Nat → Nat → List Byte
  | 0, _ => []
  | n + 1, v => BitVec.ofNat 8 v :: leBytes n (v / 256)

/-- `fromLE(S)`: the sum of `S[i]·2^(8i)` (R4). -/
def fromLE : List Byte → Nat
  | [] => 0
  | b :: bs => b.toNat + 256 * fromLE bs

/-- `BE_n(v)`: the `n`-byte string whose byte 0 holds the most significant byte of `v` (R4). -/
def beBytes (n v : Nat) : List Byte := (leBytes n v).reverse

/-- `fromBE(S)`: the sum of `S[i]·2^(8(|S|-1-i))` (R4). -/
def fromBE (bs : List Byte) : Nat := fromLE bs.reverse

/-- `S[a..b)`: bytes `a` to `b-1` of `S` (spec/00_scope.md section 5). -/
def slice (bs : List Byte) (a b : Nat) : List Byte := (bs.take b).drop a

/-- `0^n`: `n` zero bytes (spec/00_scope.md section 5). -/
def zeros (n : Nat) : List Byte := List.replicate n 0

/-- Byte `i` of a byte string. -/
def byteAt (bs : List Byte) (i : Nat) : Byte := bs.getD i 0

end Sys2Proof.Machine
end

