-- ==== Sys2Proof/Machine/Ops.lean ====
section
/-! DEFINITION. The named operations over the state: the byte-array registers, CAN identifiers, the issue of a command
(R110), its completion with success or with an error (R112 to R114), and the reset of the block (R290 to R292). -/

namespace Sys2Proof.Machine

/-! ## The byte-array registers -/

/-- The byte at a window offset. -/
def Memory.read : Memory → Nat → Byte
  | [], _ => Memory.unlisted
  | c :: m, a => if c.1 = a then c.2 else Memory.read m a

/-- Every entry of one offset removed. -/
def Memory.erase : Memory → Nat → Memory
  | [], _ => []
  | c :: m, a => if c.1 = a then Memory.erase m a else c :: Memory.erase m a

/-- An entry put before the first entry of a higher offset. -/
def Memory.insert : Memory → Nat → Byte → Memory
  | [], a, b => [(a, b)]
  | c :: m, a, b => if a < c.1 then (a, b) :: c :: m else c :: Memory.insert m a b

/-- One byte written; writing the value an unlisted offset reads as removes the entry. -/
def Memory.write (m : Memory) (a : Nat) (b : Byte) : Memory :=
  if b = Memory.unlisted then m.erase a else (m.erase a).insert a b

/-- `n` bytes read from offset `a` upward. -/
def Memory.readBytes (m : Memory) : Nat → Nat → List Byte
  | _, 0 => []
  | a, n + 1 => m.read a :: Memory.readBytes m (a + 1) n

/-- `A[0..n) <- S`: a byte string written from offset `a` upward; other bytes keep their values. -/
def Memory.writeBytes : Memory → Nat → List Byte → Memory
  | m, _, [] => m
  | m, a, b :: bs => Memory.writeBytes (m.write a b) (a + 1) bs

/-- The 32-bit register at a window offset inside a byte array: `Wi = fromLE(A[4i..4i+4))` (R5). -/
def Memory.readWord (m : Memory) (a : Nat) : Word := BitVec.ofNat 32 (fromLE (m.readBytes a 4))

/-- A 32-bit register inside a byte array written: `A[4i..4i+4) = LE_4(Wi)` (R5). -/
def Memory.writeWord (m : Memory) (a : Nat) (v : Word) : Memory := m.writeBytes a (leBytes 4 v.toNat)

/-- Offset of KEY0 (spec/10_state.md section 1). -/
def keyBase : Nat := 0x080

/-- Offset of MAC0 (spec/10_state.md section 1). -/
def macBase : Nat := 0x0A0

/-- Offset of FRAME_D0 (spec/10_state.md section 1). -/
def frameBase : Nat := 0x0B8

/-- Offset of BUF0 (spec/10_state.md section 1). -/
def bufBase : Nat := 0x100

/-- Offset of REASM0 (spec/10_state.md section 1). -/
def reasmBase : Nat := 0x140

/-! ## CAN identifiers -/

/-- The 32-bit form of a CAN identifier: EXT in bit 31, bits `[30:29]` 0, the identifier in `[28:0]` (R35). -/
def CanId.toWord (c : CanId) : Word := BitVec.ofBool c.ext ++ 0#2 ++ c.ident

/-- What a write of a word stores in a CAN identifier register; bits `[30:29]` are dropped (R35). -/
def CanId.ofWord (w : Word) : CanId where
  ext := w.getLsbD 31
  ident := w.extractLsb' 0 29

/-! ## Completion of a command -/

/-- The code of an error in STATUS.ERRCODE (R260). -/
def errorCodeBits : ErrorCode → BitVec 8
  | .ok => 0
  | .illegal => 1
  | .keylen => 2
  | .badlen => 3
  | .range => 4
  | .malformed => 5
  | .incomplete => 6
  | .icv => 7

/-- What every completion step does to STATUS: ERRCODE takes the code (and ERR with it), BUSY falls, DONE rises
(R112). PENDING, free from here on (R48 and spec/93_implementation_defined.md section 2, "any value"), keeps the
completed word, legal or not: DESIGN CHOICE, log entry 1. -/
def State.retire (s : State) (c : ErrorCode) : State :=
  { s with errCode := errorCodeBits c, busy := false, done := true }

/-- A command ends in `raise Error(code)`, the block's one form of exception: no register changes but STATUS
(R112, R114). Nothing is saved and no mode changes (R274). -/
def State.raiseError (s : State) (c : ErrorCode) : State := s.retire c

/-- The completion step of a command whose pseudocode is `body`: on success every write it made is committed (R113); on
`raise Error(code)` they are discarded, and only what `onError` names changes besides the lifecycle fields (R114). -/
def State.finish (s : State) (onError : State → State) (body : Except ErrorCode State) : State :=
  match body with
  | .ok t => t.retire .ok
  | .error c => (onError s).raiseError c

/-- A completion step as the outcome of a meaning: it always answers a next state. -/
def complete (s : State) (onError : State → State) (body : Except ErrorCode State) :
    Host.Outcome State Fault Refusal :=
  .next (s.finish onError body)

/-- What a failed VERIFY clears besides the lifecycle fields: MATCH and MOFS (R114, R136). -/
def State.clearMatch (s : State) : State := { s with matched := false, mofs := 0 }

/-- What a failed decoder clears besides the lifecycle fields: KIND (R114, R200). -/
def State.clearKind (s : State) : State := { s with kind := 0 }

/-! ## Issue and reset -/

/-- A host write of `w` to CMD while BUSY = 0: PENDING takes it, BUSY rises, DONE falls, nothing else of STATUS changes
(R110). The completion is due after the latency of this command (R3), a free
number drawn by the count of issued commands alone (DESIGN CHOICE, log entry 16). -/
def State.issue (s : State) (w : Word) : State :=
  { s with pending := w, busy := true, done := false,
           latency := Config.cmdLatency s.issued, issued := s.issued + 1 }

/-- The whole block at its reset state, from the reset input or CTRL.SRST, a command in flight being abandoned
(R290 to R292). What is not the block's stays: the host's further accesses, the counters of the free values, and the
bus's answer. -/
def State.resetBlock (s : State) : State :=
  { State.reset with inputs := s.inputs, issued := s.issued, draws := s.draws, answer := s.answer }

/-- One step of the run passes; a command in flight comes one step nearer to its completion. -/
def State.tick (s : State) : State := { s with latency := s.latency - 1 }

end Sys2Proof.Machine
end

