-- ==== Sys2Proof/Machine/Flags.lean ====
section
/-! DEFINITION. The fields of STATUS and CTRL as the host sees them, and the interrupt line
(R22, R23, R98, R272). -/

namespace Sys2Proof.Machine

/-- The code of a format in STATUS.KIND (R98). -/
def kindBits : Kind → BitVec 4
  | .none => 0
  | .reqchal => 1
  | .chal => 2
  | .chalNonce => 3
  | .frag => 4
  | .ack => 5
  | .sig16 => 6
  | .areq => 7
  | .areqMac => 8
  | .sig32 => 9
  | .plain => 10
  | .time => 11
  | .timeMac => 12

/-- STATUS.ERR: "1 exactly when ERRCODE is not 0" (R23). -/
def State.err (s : State) : Bool := s.errCode != 0

/-- STATUS.RFULL: "1 exactly when RMAP = 0x3F" (R23). -/
def State.rfull (s : State) : Bool := s.rmap == 0x3F

/-- STATUS as a read returns it, its fields from bit 31 down (R23). -/
def State.statusWord (s : State) : Word :=
  0#4 ++ s.kind ++ 0#1 ++ BitVec.ofBool s.rfull ++ s.rmap ++ s.errCode ++ 0#1 ++ BitVec.ofBool s.busyErr ++
    s.mofs ++ BitVec.ofBool s.matched ++ BitVec.ofBool s.err ++ BitVec.ofBool s.done ++ BitVec.ofBool s.busy

/-- CTRL as a read returns it, its fields from bit 31 down; SRST reads 0 (R22). -/
def State.ctrlWord (s : State) : Word :=
  0#26 ++ s.klen ++ 0#2 ++ BitVec.ofBool s.ie ++ 0#1

/-- The interrupt output, a level: `IRQ = STATUS.DONE and CTRL.IE` (R272). -/
def State.irq (s : State) : Bool := s.done && s.ie

/-- A write of STATUS, busy or not: bit 1 clears DONE, bit 6 clears BUSYERR, every other bit is ignored (R23). -/
def State.writeStatus (s : State) (v : Word) : State :=
  { s with done := s.done && !v.getLsbD 1, busyErr := s.busyErr && !v.getLsbD 6 }

/-- STATUS.KIND set by a decoder that recognised a format (R98, R200). -/
def State.setKind (s : State) (k : Kind) : State := { s with kind := kindBits k }

end Sys2Proof.Machine
end

