-- ==== Sys2Proof/Machine/Bus.lean ====
section
/-! DEFINITION. The host's accesses to the register window (spec/20_memory.md, spec/40_command_cycle.md R110, R111,
R117, R118): the register map, reads, writes, and what an access does while a command is in flight. -/

namespace Sys2Proof.Machine

/-- The offset of each register (spec/10_state.md section 1). -/
def regOffset : Reg → Nat
  | .id => 0x000
  | .ctrl => 0x004
  | .status => 0x008
  | .cmd => 0x00C
  | .nodeCnt => 0x010
  | .txid => 0x014
  | .time => 0x018
  | .len => 0x01C
  | .tpos => 0x020
  | .fType => 0x040
  | .fDst => 0x044
  | .fSrc => 0x048
  | .fFwd => 0x04C
  | .fFrag => 0x050
  | .fSignum => 0x054
  | .fPresc => 0x058
  | .fValue => 0x05C
  | .fMask => 0x060
  | .fTime => 0x064
  | .fCanid => 0x068
  | .fNonce0 => 0x06C
  | .fNonce1 => 0x070
  | .tag => 0x074
  | .key i => keyBase + 4 * i.val
  | .mac i => macBase + 4 * i.val
  | .frameId => 0x0B0
  | .frameDlc => 0x0B4
  | .frameD i => frameBase + 4 * i.val
  | .buf i => bufBase + 4 * i.val
  | .reasm i => reasmBase + 4 * i.val

/-- Every register of the window, in the order of their offsets (spec/10_state.md section 1). -/
def allRegs : List Reg :=
  [.id, .ctrl, .status, .cmd, .nodeCnt, .txid, .time, .len, .tpos,
   .fType, .fDst, .fSrc, .fFwd, .fFrag, .fSignum, .fPresc, .fValue, .fMask, .fTime, .fCanid,
   .fNonce0, .fNonce1, .tag,
   .key 0, .key 1, .key 2, .key 3, .key 4, .key 5,
   .mac 0, .mac 1, .mac 2, .mac 3,
   .frameId, .frameDlc, .frameD 0, .frameD 1,
   .buf 0, .buf 1, .buf 2, .buf 3, .buf 4, .buf 5, .buf 6, .buf 7,
   .buf 8, .buf 9, .buf 10, .buf 11, .buf 12, .buf 13, .buf 14, .buf 15,
   .reasm 0, .reasm 1, .reasm 2, .reasm 3, .reasm 4, .reasm 5, .reasm 6, .reasm 7]

/-- The register at a window offset; none at a reserved offset (R49). -/
def regAt (off : Nat) : Option Reg := allRegs.find? fun r => regOffset r == off

/-- The constant ID reads: "MC", revision 1 (R21). -/
def idWord : Word := 0x4D430001

/-- What a read of a register returns while BUSY = 0, reserved bits 0; CMD and KEY0 to KEY5 are write-only and read 0
(R61, R24, R32). -/
def State.readReg (s : State) : Reg → Word
  | .id => idWord
  | .ctrl => s.ctrlWord
  | .status => s.statusWord
  | .cmd => 0
  | .nodeCnt => s.nodeCnt.setWidth 32
  | .txid => s.txid.toWord
  | .time => s.time
  | .len => s.len.setWidth 32
  | .tpos => s.tpos.setWidth 32
  | .fType => s.fType.setWidth 32
  | .fDst => s.fDst.setWidth 32
  | .fSrc => s.fSrc.setWidth 32
  | .fFwd => s.fFwd.setWidth 32
  | .fFrag => s.fFrag.setWidth 32
  | .fSignum => s.fSignum.setWidth 32
  | .fPresc => s.fPresc.setWidth 32
  | .fValue => s.fValue
  | .fMask => s.fMask.setWidth 32
  | .fTime => s.fTime
  | .fCanid => s.fCanid.toWord
  | .fNonce0 => s.fNonce0
  | .fNonce1 => s.fNonce1.setWidth 32
  | .tag => s.tag
  | .key _ => 0
  | .mac i => s.mem.readWord (regOffset (.mac i))
  | .frameId => s.frameId.toWord
  | .frameDlc => s.frameDlc.setWidth 32
  | .frameD i => s.mem.readWord (regOffset (.frameD i))
  | .buf i => s.mem.readWord (regOffset (.buf i))
  | .reasm i => s.mem.readWord (regOffset (.reasm i))

/-- A write of CTRL while BUSY = 0: SRST resets the block, otherwise IE and KLEN are stored (R22, R290). -/
def State.writeCtrl (s : State) (v : Word) : State :=
  if v.getLsbD 0 then s.resetBlock
  else { s with ie := v.getLsbD 1, klen := v.extractLsb' 4 2 }

/-- A write of NODECNT: stored when it is 1 to 64, ignored otherwise (R25). -/
def State.writeNodeCnt (s : State) (v : Word) : State :=
  if 1 ≤ v.toNat ∧ v.toNat ≤ 64 then { s with nodeCnt := v.setWidth 7 } else s

/-- What a write of a register does while BUSY = 0: its writable bits are stored, read-only registers and reserved bits
keep their values, and CMD, STATUS, CTRL and NODECNT act as their rules say (R62). -/
def State.writeReg (s : State) (r : Reg) (v : Word) : State :=
  match r with
  | .id => s
  | .ctrl => s.writeCtrl v
  | .status => s.writeStatus v
  | .cmd => s.issue v
  | .nodeCnt => s.writeNodeCnt v
  | .txid => { s with txid := CanId.ofWord v }
  | .time => { s with time := v }
  | .len => { s with len := v.setWidth 7 }
  | .tpos => { s with tpos := v.setWidth 6 }
  | .fType => s
  | .fDst => { s with fDst := v.setWidth 8 }
  | .fSrc => { s with fSrc := v.setWidth 8 }
  | .fFwd => { s with fFwd := v.setWidth 8 }
  | .fFrag => { s with fFrag := v.setWidth 8 }
  | .fSignum => { s with fSignum := v.setWidth 8 }
  | .fPresc => { s with fPresc := v.setWidth 8 }
  | .fValue => { s with fValue := v }
  | .fMask => { s with fMask := v.setWidth 24 }
  | .fTime => { s with fTime := v }
  | .fCanid => { s with fCanid := CanId.ofWord v }
  | .fNonce0 => { s with fNonce0 := v }
  | .fNonce1 => { s with fNonce1 := v.setWidth 16 }
  | .tag => { s with tag := v }
  | .key i => { s with mem := s.mem.writeWord (regOffset (.key i)) v }
  | .mac _ => s
  | .frameId => { s with frameId := CanId.ofWord v }
  | .frameDlc => { s with frameDlc := v.setWidth 4 }
  | .frameD i => { s with mem := s.mem.writeWord (regOffset (.frameD i)) v }
  | .buf i => { s with mem := s.mem.writeWord (regOffset (.buf i)) v }
  | .reasm _ => s

/-- A write at a window offset while BUSY = 0; a reserved offset ignores it (R49, R62). -/
def State.writeIdle (s : State) (off : Nat) (v : Word) : State :=
  match regAt off with
  | some r => s.writeReg r v
  | none => s

/-- A write at a window offset while BUSY = 1: STATUS acts on its W1C bits, CTRL with SRST resets, every other write is
lost and sets BUSYERR (R111, R118). -/
def State.writeBusy (s : State) (off : Nat) (v : Word) : State :=
  if off = regOffset .status then s.writeStatus v
  else if off = regOffset .ctrl ∧ v.getLsbD 0 then s.resetBlock
  else { s with busyErr := true }

/-- What a read at a window offset returns while BUSY = 0; a reserved offset reads 0 (R49, R61). -/
def State.readIdle (s : State) (off : Nat) : Word :=
  match regAt off with
  | some r => s.readReg r
  | none => 0

/-- ID, CTRL and STATUS, the registers a read while BUSY = 1 returns exactly (R117). -/
def exactWhileBusy (off : Nat) : Bool :=
  off == regOffset .id || off == regOffset .ctrl || off == regOffset .status

/-- An accepted read at a window offset: the value goes to the host, and no state of the block changes (R61). While
BUSY = 1, what is not ID, CTRL or STATUS reads as a free value (R117), reserved offsets, CMD and KEY among it (DEDUCED,
log entry 5); that value is drawn by count alone, so it is independent of the registers and of the offset (DESIGN
CHOICE, log entry 14). -/
def State.busRead (s : State) (off : Nat) : State :=
  if s.busy && !exactWhileBusy off then
    { s with answer := .data (Config.busyRead s.draws), draws := s.draws + 1 }
  else { s with answer := .data (s.readIdle off) }

/-- Bit 0 of the value the bus answered a read with; of STATUS it is BUSY (R23). -/
def busyBit : BusAnswer → Bool
  | .data v => v.getLsbD 0
  | .none | .written | .busError => false

/-- An accepted write at a window offset (R62, R118). -/
def State.busWrite (s : State) (off : Nat) (v : Word) : State :=
  { (if s.busy then s.writeBusy off v else s.writeIdle off v) with answer := .written }

/-- One host access that falls into the window, at an offset of it: an access that is not an aligned 32-bit one is
answered with a bus error and changes no state of the block (R65, R269). -/
def State.windowAccess (s : State) (a : HostAccess) (off : Nat) : State :=
  if a.accepted then
    match a.op with
    | .read => s.busRead off
    | .write v => s.busWrite off v
  else { s with answer := .busError }

/-- The window offset of a bus address: "the block decodes only address bits `[8:0]` relative to `BASE`", and none when
the address lies outside the window (R2). -/
def windowOffset (addr : Nat) : Option Nat :=
  if addr / 0x200 = Config.baseIndex then some (addr % 0x200) else none

/-- One round of the host's `wait` loop: "repeat `rd STATUS` until bit 0 (BUSY) of the value read is 0" (R86). The read
is an accepted one of STATUS; the loop stays at the head of what the host does next while the value read shows
BUSY = 1. -/
def State.waitRound (s : State) : State :=
  let t := s.busRead (regOffset .status)
  if busyBit t.answer then { t with inputs := .wait :: s.inputs } else t

/-- What one event from outside does to the block: a host access, the platform's reset input (R290), or one round of
the host's `wait` loop (R86). -/
def hostStep (s : State) : HostEvent → Host.Outcome State Fault Refusal
  | .access a =>
    match windowOffset a.addr with
    | some off => .next (s.windowAccess a off)
    | none => .fault (.outsideWindow a.addr)
  | .resetInput => .next s.resetBlock
  | .wait => .next s.waitRound

end Sys2Proof.Machine
end

