-- ==== Sys2Proof/Machine/CryptoAlgorithms.lean ====
section
/-! DEFINITION. The algorithms of spec/41_crypto.md sections 1 to 3 over a block cipher given as a function: the
doubling and the subkeys (R131, R132), CMAC (R133), key wrap (R139) and key unwrap (R140). -/

namespace Sys2Proof.Machine

/-- A 16-byte string as a block, `X[0]` the most significant byte (R4, R131). -/
def blockOf (bs : List Byte) : Block := BitVec.ofNat 128 (fromBE bs)

/-- A block as its 16 bytes, most significant first. -/
def blockBytes (x : Block) : List Byte := beBytes 16 x.toNat

/-! ## CMAC -/

/-- `dbl(X)`: a left shift by one bit and, when the top bit was 1, an XOR of 0x87 into the last byte (R131). -/
def dbl (x : Block) : Block :=
  if x.getLsbD 127 then (x <<< 1) ^^^ 0x87#128 else x <<< 1

/-- `L = AES_Enc(K, 0^16)`, `K1 = dbl(L)`, `K2 = dbl(K1)` (R132). -/
def subkeys (enc : Block → Block) : Block × Block :=
  (dbl (enc 0), dbl (dbl (enc 0)))

/-- The chaining value `X` after the first `i` blocks of `m` (the loop of R133). -/
def cbcChain (enc : Block → Block) (m : List Byte) : Nat → Block
  | 0 => 0
  | i + 1 => enc (cbcChain enc m i ^^^ blockOf (slice m (16 * i) (16 * i + 16)))

/-- The number of blocks `n` of a message of `len` bytes: `ceil(len / 16)`, and 1 for the empty message (R133). -/
def blockCount (len : Nat) : Nat := if len = 0 then 1 else (len + 15) / 16

/-- `Mlast`: the last block XORed with K1 when it is complete, padded with 0x80 and zeros and XORed with K2 when it is
not (R133). -/
def lastBlock (enc : Block → Block) (m : List Byte) : Block :=
  let mn := slice m (16 * (blockCount m.length - 1)) m.length
  if m.length ≠ 0 ∧ m.length % 16 = 0 then blockOf mn ^^^ (subkeys enc).1
  else blockOf (mn ++ 0x80#8 :: zeros (15 - mn.length)) ^^^ (subkeys enc).2

/-- `CMAC(K, M)` (R133), with `enc = AES_Enc(K, ·)`. -/
def cmacBlock (enc : Block → Block) (m : List Byte) : Block :=
  enc (cbcChain enc m (blockCount m.length - 1) ^^^ lastBlock enc m)

/-- `CMAC(K, M)` as 16 bytes. -/
def cmacBytes (enc : Block → Block) (m : List Byte) : List Byte := blockBytes (cmacBlock enc m)

/-- The 4-byte signature: "truncates `cmac` to its first 4 bytes" (R135, R136). -/
def signature (enc : Block → Block) (m : List Byte) : List Byte := (cmacBytes enc m).take 4

/-! ## Key wrap -/

/-- The integrity constant `A6A6A6A6A6A6A6A6` (R139, R140). -/
def wrapConstant : Semiblock := 0xA6A6A6A6A6A6A6A6#64

/-- An 8-byte string as a semiblock, first byte most significant (R4, R139). -/
def semiOf (bs : List Byte) : Semiblock := BitVec.ofNat 64 (fromBE bs)

/-- A semiblock as its 8 bytes, most significant first. -/
def semiBytes (x : Semiblock) : List Byte := beBytes 8 x.toNat

/-- The first `n` semiblocks of a byte string. -/
def semisOf (bs : List Byte) : Nat → List Semiblock
  | 0 => []
  | n + 1 => semiOf (bs.take 8) :: semisOf (bs.drop 8) n

/-- The bytes of a list of semiblocks, in order. -/
def semisBytes : List Semiblock → List Byte
  | [] => []
  | r :: rs => semiBytes r ++ semisBytes rs

/-- `B[0..8)`. -/
def blockHigh (b : Block) : Semiblock := b.extractLsb' 64 64

/-- `B[8..16)`. -/
def blockLow (b : Block) : Semiblock := b.extractLsb' 0 64

/-- The inner loop of R139, `i` upward over the registers given, the first of them at step `t`: for each,
`B <- AES_Enc(K, A ‖ R[i])`, `A <- B[0..8) ⊕ BE_8(t)`, `R[i] <- B[8..16)`. -/
def wrapPass (enc : Block → Block) : Nat → Semiblock → List Semiblock → Semiblock × List Semiblock
  | _, a, [] => (a, [])
  | t, a, r :: rs =>
    let b := enc (a ++ r)
    let rest := wrapPass enc (t + 1) (blockHigh b ^^^ BitVec.ofNat 64 t) rs
    (rest.1, blockLow b :: rest.2)

/-- The inner loop of R140, `i` downward over the registers given, the first of them at step `t`: for each, from the
last, `B <- AES_Dec(K, (A ⊕ BE_8(t)) ‖ R[i])`, `A <- B[0..8)`, `R[i] <- B[8..16)`. -/
def unwrapPass (dec : Block → Block) : Nat → Semiblock → List Semiblock → Semiblock × List Semiblock
  | _, a, [] => (a, [])
  | t, a, r :: rs =>
    let rest := unwrapPass dec (t + 1) a rs
    let b := dec ((rest.1 ^^^ BitVec.ofNat 64 t) ++ r)
    (blockHigh b, blockLow b :: rest.2)

/-- The outer loop of R139 for `j = 0 .. k-1`, over `n` registers: pass `j` has the steps `t = n·j + 1 .. n·j + n`. -/
def wrapPasses (enc : Block → Block) (a : Semiblock) (rs : List Semiblock) : Nat → Semiblock × List Semiblock
  | 0 => (a, rs)
  | k + 1 =>
    let before := wrapPasses enc a rs k
    wrapPass enc (rs.length * k + 1) before.1 before.2

/-- The outer loop of R140 for `j = k-1 downto 0`. -/
def unwrapPasses (dec : Block → Block) (a : Semiblock) (rs : List Semiblock) : Nat → Semiblock × List Semiblock
  | 0 => (a, rs)
  | k + 1 =>
    let after := unwrapPass dec (rs.length * k + 1) a rs
    unwrapPasses dec after.1 after.2 k

/-- `KW(K, P)`, with `enc = AES_Enc(K, ·)`, for `|P| = 8n` (R139). -/
def keyWrap (enc : Block → Block) (p : List Byte) : List Byte :=
  let out := wrapPasses enc wrapConstant (semisOf p (p.length / 8)) 6
  semiBytes out.1 ++ semisBytes out.2

/-- `KUW(K, C)`, with `dec = AES_Dec(K, ·)`, for `|C| = 8(n+1)`: whether the recovered integrity value is the
constant, and the data, which no command releases when it is not (R140). -/
def keyUnwrap (dec : Block → Block) (c : List Byte) : Bool × List Byte :=
  let out := unwrapPasses dec (semiOf (c.take 8)) (semisOf (c.drop 8) (c.length / 8 - 1)) 6
  (out.1 == wrapConstant, semisBytes out.2)

end Sys2Proof.Machine
end

