-- ==== Sys2Proof/Machine/Operands.lean ====
section
/-! DEFINITION. The operands of the commands, as the rules name them: the key, the message, the nonce, the tag, the
frame's bytes, and the checks of keys and NodeIds (R25, R33, R37 to R39, R46, R47, R130, R170). -/

namespace Sys2Proof.Machine

/-- `KEYARR[0..n)` (R32). -/
def State.keyArr (s : State) (n : Nat) : List Byte := s.mem.readBytes keyBase n

/-- `KEYBYTES()` for KLEN = 0: the first 16 bytes of the key array, `KEYBYTES()[0]` first (R33). -/
def State.key128 (s : State) : AesKey := .aes128 (BitVec.ofNat 128 (fromBE (s.keyArr 16)))

/-- `KEYBYTES()` for KLEN = 1: all 24 bytes of the key array (R33). -/
def State.key192 (s : State) : AesKey := .aes192 (BitVec.ofNat 192 (fromBE (s.keyArr 24)))

/-- `KeyCheckCMAC()` and then `KEYBYTES()`: only KLEN = 0 passes (R130). -/
def State.cmacKey (s : State) : Option AesKey :=
  if s.klen = 0 then some s.key128 else none

/-- `KeyCheckKW()` and then `KEYBYTES()`: KLEN = 0 and KLEN = 1 pass (R130). -/
def State.kwKey (s : State) : Option AesKey :=
  if s.klen = 0 then some s.key128 else if s.klen = 1 then some s.key192 else none

/-- `BUF[0..n)` (R38). -/
def State.bufBytes (s : State) (n : Nat) : List Byte := s.mem.readBytes bufBase n

/-- `BUF[0..LEN)`, the message or the key data of the next crypto command (R28, R38). -/
def State.message (s : State) : List Byte := s.bufBytes s.len.toNat

/-- `BUF[a..a+|S|) <- S`; other bytes keep their values. -/
def State.writeBuf (s : State) (a : Nat) (bs : List Byte) : State :=
  { s with mem := s.mem.writeBytes (bufBase + a) bs }

/-- `MACARR <- T`: MAC0 to MAC3 (R34). -/
def State.writeMac (s : State) (t : List Byte) : State :=
  { s with mem := s.mem.writeBytes macBase t }

/-- `MACARR[0..16)` (R34). -/
def State.macArr (s : State) : List Byte := s.mem.readBytes macBase 16

/-- `REASM[0..32)` (R39). -/
def State.reasmBytes (s : State) : List Byte := s.mem.readBytes reasmBase 32

/-- `REASM[a..a+|S|) <- S`. -/
def State.writeReasm (s : State) (a : Nat) (bs : List Byte) : State :=
  { s with mem := s.mem.writeBytes (reasmBase + a) bs }

/-- `FB[i]` (R37). -/
def State.fb (s : State) (i : Nat) : Byte := s.mem.read (frameBase + i)

/-- `FB[a..a+n)` (R37). -/
def State.fbBytes (s : State) (a n : Nat) : List Byte := s.mem.readBytes (frameBase + a) n

/-- `fromLE(FB[a..a+4))`, a 32-bit field of a frame. -/
def State.fbWord (s : State) (a : Nat) : Word := BitVec.ofNat 32 (fromLE (s.fbBytes a 4))

/-- `NONCE() = LE_4(F_NONCE0) ‖ LE_2(F_NONCE1[15:0])` (R46). -/
def State.nonce (s : State) : List Byte := leBytes 4 s.fNonce0.toNat ++ leBytes 2 s.fNonce1.toNat

/-- `TAGB = LE_4(TAG)` (R47). -/
def State.tagBytes (s : State) : List Byte := leBytes 4 s.tag.toNat

/-- A NodeId is in range when it is below NODECNT: the check of `NodeCheck` (R25, R170) and of the decoders (R202). -/
def State.inRange (s : State) (n : Byte) : Bool := n.toNat < s.nodeCnt.toNat

/-- `byte0(t) = (t << 6) | (F_DST & 0x3F)` (R88, R170). -/
def State.byte0 (s : State) (t : BitVec 2) : Byte := t ++ s.fDst.extractLsb' 0 6

/-- The identifier bits a MAC plaintext binds: `F_CANID[28:0]` as a 32-bit value (R242, R245). -/
def State.canIdBytes (s : State) : List Byte := leBytes 4 s.fCanid.ident.toNat

/-- How many data bytes fragment `seq` carries: 6 for 0 to 4, 2 for 5 (R91). -/
def fragLen (seq : Nat) : Nat := if seq < 5 then 6 else 2

end Sys2Proof.Machine
end

