-- ==== Sys2Proof/Machine/CryptoCommands.lean ====
section
/-! DEFINITION. The crypto commands CMAC, SIGN, VERIFY, VERIFY.W, GENSUB, WRAP, UNWRAP and UNWRAPR
(spec/41_crypto.md sections 2 and 3). Each body is the rule's pseudocode over a cipher `c`; each meaning is its
completion step under the block's own cipher (R1). -/

namespace Sys2Proof.Machine

/-- CMAC: MAC0 to MAC3 take the MAC of `BUF[0..LEN)` (R134). -/
def cmacBody (c : Cipher) (s : State) : Except ErrorCode State :=
  match s.cmacKey with
  | none => .error .keylen
  | some k =>
    if 64 < s.len.toNat then .error .badlen
    else .ok (s.writeMac (cmacBytes (c.enc k) s.message))

/-- The completion step of CMAC (R134). -/
def execCmac (s : State) : Host.Outcome State Fault Refusal :=
  complete s id (cmacBody Config.cipher s)

/-- SIGN: as CMAC, and TAG takes the first 4 bytes of the MAC (R135). -/
def signBody (c : Cipher) (s : State) : Except ErrorCode State :=
  match s.cmacKey with
  | none => .error .keylen
  | some k =>
    if 64 < s.len.toNat then .error .badlen
    else .ok { s.writeMac (cmacBytes (c.enc k) s.message) with
      tag := BitVec.ofNat 32 (fromLE (signature (c.enc k) s.message)) }

/-- The completion step of SIGN (R135). -/
def execSign (s : State) : Host.Outcome State Fault Refusal :=
  complete s id (signBody Config.cipher s)

/-- A signature equals the tag: "The comparison is over exactly 4 bytes" (R136). -/
def State.tagMatches (s : State) (enc : Block → Block) (m : List Byte) : Bool :=
  signature enc m == s.tagBytes

/-- VERIFY with F = 0: MATCH reports whether the signature of `BUF[0..LEN)` is TAG; MOFS is 0 (R136). -/
def verifyBody (c : Cipher) (s : State) : Except ErrorCode State :=
  match s.cmacKey with
  | none => .error .keylen
  | some k =>
    if 64 < s.len.toNat then .error .badlen
    else .ok { s with matched := s.tagMatches (c.enc k) s.message, mofs := 0 }

/-- The completion step of VERIFY; on an error MATCH and MOFS are cleared (R114, R136). -/
def execVerify (s : State) : Host.Outcome State Fault Refusal :=
  complete s State.clearMatch (verifyBody Config.cipher s)

/-- `M'`: the message with the 4 bytes at TPOS replaced by a time (R136). -/
def withTime (m : List Byte) (pos : Nat) (t : Word) : List Byte :=
  m.take pos ++ leBytes 4 t.toNat ++ m.drop (pos + 4)

/-- The times VERIFY.W tries, in order, each with its MOFS code: TIME - 1, TIME, TIME + 1, modulo 2^32
(R136, R137). -/
def windowTimes (t : Word) : List (Word × BitVec 2) := [(t - 1, 1), (t, 2), (t + 1, 3)]

/-- The first window time whose message has the signature TAG (R136). -/
def State.windowMatch (s : State) (enc : Block → Block) : Option (Word × BitVec 2) :=
  (windowTimes s.time).find? fun p => s.tagMatches enc (withTime s.message s.tpos.toNat p.1)

/-- VERIFY with F = 1: MATCH and MOFS report the first time of the replay window that matches (R136). -/
def verifyWBody (c : Cipher) (s : State) : Except ErrorCode State :=
  match s.cmacKey with
  | none => .error .keylen
  | some k =>
    if 64 < s.len.toNat then .error .badlen
    else if s.len.toNat < s.tpos.toNat + 4 then .error .badlen
    else
      match s.windowMatch (c.enc k) with
      | some p => .ok { s with matched := true, mofs := p.2 }
      | none => .ok { s with matched := false, mofs := 0 }

/-- The completion step of VERIFY.W; on an error MATCH and MOFS are cleared (R114, R136). -/
def execVerifyW (s : State) : Host.Outcome State Fault Refusal :=
  complete s State.clearMatch (verifyWBody Config.cipher s)

/-- GENSUB: `BUF[0..16)` takes K1, `BUF[16..32)` K2, LEN 32 (R138). -/
def gensubBody (c : Cipher) (s : State) : Except ErrorCode State :=
  match s.cmacKey with
  | none => .error .keylen
  | some k =>
    let ks := subkeys (c.enc k)
    .ok { (s.writeBuf 0 (blockBytes ks.1)).writeBuf 16 (blockBytes ks.2) with len := 32 }

/-- The completion step of GENSUB (R138). -/
def execGensub (s : State) : Host.Outcome State Fault Refusal :=
  complete s id (gensubBody Config.cipher s)

/-- WRAP: `BUF[0..LEN+8)` takes the wrapped `BUF[0..LEN)`, and LEN grows by 8 (R141). -/
def wrapBody (c : Cipher) (s : State) : Except ErrorCode State :=
  match s.kwKey with
  | none => .error .keylen
  | some k =>
    if s.len.toNat < 16 ∨ 56 < s.len.toNat ∨ s.len.toNat % 8 ≠ 0 then .error .badlen
    else .ok { s.writeBuf 0 (keyWrap (c.enc k) s.message) with len := s.len + 8 }

/-- The completion step of WRAP (R141). -/
def execWrap (s : State) : Host.Outcome State Fault Refusal :=
  complete s id (wrapBody Config.cipher s)

/-- UNWRAP: `BUF[0..LEN-8)` takes the data unwrapped from `BUF[0..LEN)`, and LEN shrinks by 8; ICV when the integrity
value is wrong (R142). -/
def unwrapBody (c : Cipher) (s : State) : Except ErrorCode State :=
  match s.kwKey with
  | none => .error .keylen
  | some k =>
    if s.len.toNat < 24 ∨ 64 < s.len.toNat ∨ s.len.toNat % 8 ≠ 0 then .error .badlen
    else
      let out := keyUnwrap (c.dec k) s.message
      if out.1 then .ok { s.writeBuf 0 out.2 with len := s.len - 8 }
      else .error .icv

/-- The completion step of UNWRAP (R142). -/
def execUnwrap (s : State) : Host.Outcome State Fault Refusal :=
  complete s id (unwrapBody Config.cipher s)

/-- UNWRAPR: `BUF[0..24)` takes the data unwrapped from `REASM[0..32)`, LEN 24; INCOMPLETE while a fragment is missing,
ICV when the integrity value is wrong (R143). -/
def unwraprBody (c : Cipher) (s : State) : Except ErrorCode State :=
  match s.kwKey with
  | none => .error .keylen
  | some k =>
    if s.rmap ≠ 0x3F then .error .incomplete
    else
      let out := keyUnwrap (c.dec k) s.reasmBytes
      if out.1 then .ok { s.writeBuf 0 out.2 with len := 24 }
      else .error .icv

/-- The completion step of UNWRAPR (R143). -/
def execUnwrapr (s : State) : Host.Outcome State Fault Refusal :=
  complete s id (unwraprBody Config.cipher s)

end Sys2Proof.Machine
end

