-- ==== Sys2Proof/Machine/FrameDecode.lean ====
section
/-! DEFINITION. The frame decoders and the fragment reassembly (spec/43_frame_decode.md). A decoder that fails ends in
MALFORMED and clears STATUS.KIND (R200). -/

namespace Sys2Proof.Machine

/-- `FB[0][7:6]`, the message type (R88). -/
def State.frameType (s : State) : BitVec 2 := (s.fb 0).extractLsb' 6 2

/-- `FB[0][5:0]`, the destination NodeId (R88), as F_DST holds it. -/
def State.frameDst (s : State) : Byte := 0#2 ++ (s.fb 0).extractLsb' 0 6

/-- `FB[1][7:4]` (R203). -/
def State.frameSeq (s : State) : Nat := ((s.fb 1).extractLsb' 4 4).toNat

/-- `FB[1][3:0]` (R203). -/
def State.frameFlen (s : State) : Nat := ((s.fb 1).extractLsb' 0 4).toNat

/-- `FragCheck()`: the frame is a well-formed session-key fragment (R203). -/
def State.fragCheck (s : State) : Bool :=
  2 ≤ s.frameDlc.toNat && s.frameSeq ≤ 5 && s.frameFlen == fragLen s.frameSeq &&
    2 + s.frameFlen ≤ s.frameDlc.toNat

/-- The format of the crypt frame in FRAME_*, or none where it is MALFORMED: the pseudocode of R205 up to its field
writes, with the flag K (R201, R202, R203). -/
def State.cryptKind (s : State) (k : Bool) : Option Kind :=
  let dlc := s.frameDlc.toNat
  if dlc = 0 ∨ 8 < dlc then none
  else if !s.inRange s.frameDst then none
  else if s.frameType = 0 then
    if dlc ≠ 2 then none else if !s.inRange (s.fb 1) then none else some .reqchal
  else if s.frameType = 1 then
    if dlc ≠ 2 ∧ dlc ≠ 8 then none
    else if !s.inRange (s.fb 1) then none
    else if dlc = 2 then some .chal else some .chalNonce
  else if s.frameType = 2 then
    if k then (if s.fragCheck then some .frag else none)
    else if dlc ≠ 8 then none else some .ack
  else if dlc = 8 then some .sig16
  else if dlc = 3 then some .areq
  else if dlc = 7 then some .areqMac
  else none

/-- F_TYPE and F_DST, which every crypt frame writes (R204). -/
def State.writeByte0 (s : State) : State := { s with fType := s.frameType, fDst := s.frameDst }

/-- The field writes of a successful decoder, by the format it recognised: the rows of R204. Of a FRAG only F_FRAG is
written here; FRAGST stores its data besides (R209). -/
def State.writeFields (s : State) : Kind → State
  | .none => s
  | .reqchal => { s.writeByte0 with fFwd := s.fb 1 }
  | .chal => { s.writeByte0 with fFwd := s.fb 1 }
  | .chalNonce => { s.writeByte0 with
      fFwd := s.fb 1, fNonce0 := s.fbWord 2, fNonce1 := BitVec.ofNat 16 (fromLE (s.fbBytes 6 2)) }
  | .frag => { s.writeByte0 with fFrag := s.fb 1 }
  | .ack => { s.writeByte0 with fMask := BitVec.ofNat 24 (fromLE (s.fbBytes 1 3)), tag := s.fbWord 4 }
  | .sig16 => { s.writeByte0 with
      fSignum := s.fb 1, fValue := BitVec.ofNat 32 (fromLE (s.fbBytes 2 2)), tag := s.fbWord 4 }
  | .areq => { s.writeByte0 with fSignum := s.fb 1, fPresc := s.fb 2 }
  | .areqMac => { s.writeByte0 with fSignum := s.fb 1, fPresc := s.fb 2, tag := s.fbWord 3 }
  | .sig32 => { s with fValue := s.fbWord 0, tag := s.fbWord 4 }
  | .plain => { s with fValue := s.fbWord 0 }
  | .time => { s with fTime := s.fbWord 0 }
  | .timeMac => { s with fTime := s.fbWord 0, tag := s.fbWord 4 }

/-- A decoder's outcome: the fields and the KIND of the format recognised, or MALFORMED (R200). -/
def decodeAs (s : State) : Option Kind → Except ErrorCode State
  | some k => .ok ((s.writeFields k).setKind k)
  | none => .error .malformed

/-- DECCRYPT with F = 0: a type-2 frame is an ACK (R205). -/
def deccryptBody (s : State) : Except ErrorCode State := decodeAs s (s.cryptKind false)

/-- The completion step of DECCRYPT (R205). -/
def execDeccrypt (s : State) : Host.Outcome State Fault Refusal := complete s State.clearKind (deccryptBody s)

/-- DECCRYPT with F = 1: the sender is the Key Server, a type-2 frame is a session-key fragment (R205). -/
def deccryptKBody (s : State) : Except ErrorCode State := decodeAs s (s.cryptKind true)

/-- The completion step of DECCRYPT.K (R205). -/
def execDeccryptK (s : State) : Host.Outcome State Fault Refusal := complete s State.clearKind (deccryptKBody s)

/-- DECSIG32: a secure 32-bit signal frame, 8 bytes (R206). -/
def decsig32Body (s : State) : Except ErrorCode State :=
  decodeAs s (if s.frameDlc.toNat = 8 then some .sig32 else none)

/-- The completion step of DECSIG32 (R206). -/
def execDecsig32 (s : State) : Host.Outcome State Fault Refusal := complete s State.clearKind (decsig32Body s)

/-- DECPLAIN: a non-secure signal frame, 4 bytes (R207). -/
def decplainBody (s : State) : Except ErrorCode State :=
  decodeAs s (if s.frameDlc.toNat = 4 then some .plain else none)

/-- The completion step of DECPLAIN (R207). -/
def execDecplain (s : State) : Host.Outcome State Fault Refusal := complete s State.clearKind (decplainBody s)

/-- DECTIME: a time frame, 4 or 8 bytes (R208). -/
def dectimeBody (s : State) : Except ErrorCode State :=
  decodeAs s (if s.frameDlc.toNat = 4 then some .time else if s.frameDlc.toNat = 8 then some .timeMac else none)

/-- The completion step of DECTIME (R208). -/
def execDectime (s : State) : Host.Outcome State Fault Refusal := complete s State.clearKind (dectimeBody s)

/-- The frame is one FRAGST stores: a crypt frame of type 2 with its NodeId in range that passes FragCheck (R209). -/
def State.fragAccepted (s : State) : Bool :=
  let dlc := s.frameDlc.toNat
  !(dlc == 0 || 8 < dlc) && s.inRange s.frameDst && s.frameType == 2 && s.fragCheck

/-- The data of the fragment put into its range of REASM, and its bit of RMAP set (R209). -/
def State.storeFragment (s : State) : State :=
  { s.writeReasm (6 * s.frameSeq) (s.fbBytes 2 s.frameFlen) with
    rmap := s.rmap ||| (1#6 <<< s.frameSeq) }

/-- FRAGST: the fields of a FRAG, and its data stored in the reassembly buffer (R209). -/
def fragstBody (s : State) : Except ErrorCode State :=
  if s.fragAccepted then .ok ((s.writeFields .frag).storeFragment.setKind .frag)
  else .error .malformed

/-- The completion step of FRAGST (R209). -/
def execFragst (s : State) : Host.Outcome State Fault Refusal := complete s State.clearKind (fragstBody s)

/-- RCLR: REASM and RMAP are cleared (R210). -/
def rclrBody (s : State) : Except ErrorCode State :=
  .ok { s.writeReasm 0 (zeros 32) with rmap := 0 }

/-- The completion step of RCLR; it is not a decoder, so KIND keeps its value (R210). -/
def execRclr (s : State) : Host.Outcome State Fault Refusal := complete s id (rclrBody s)

end Sys2Proof.Machine
end

