-- ==== Sys2Proof/Machine/FrameEncode.lean ====
section
/-! DEFINITION. The frame encoders (spec/42_frame_encode.md). -/

namespace Sys2Proof.Machine

/-- `EmitFrame(id, S)`: FRAME_ID, FRAME_DLC and `FB[0..8) <- S ‖ 0^(8-|S|)` (R170). -/
def State.emitFrame (s : State) (id : CanId) (bs : List Byte) : State :=
  { s with frameId := id, frameDlc := BitVec.ofNat 4 bs.length,
           mem := s.mem.writeBytes frameBase (bs ++ zeros (8 - bs.length)) }

/-- `NodeCheck(F_DST)` and then the frame of a crypt format, emitted under TXID (R170). -/
def encodeTo (s : State) (bs : List Byte) : Except ErrorCode State :=
  if s.inRange s.fDst then .ok (s.emitFrame s.txid bs) else .error .range

/-- `NodeCheck(F_DST)`, `NodeCheck(F_FWD)` and then the frame of a crypt format that carries both (R170). -/
def encodeForwarding (s : State) (bs : List Byte) : Except ErrorCode State :=
  if s.inRange s.fDst ∧ s.inRange s.fFwd then .ok (s.emitFrame s.txid bs) else .error .range

/-- ENCRQ: the REQUEST-CHALLENGE frame (R171, R89). -/
def encrqBody (s : State) : Except ErrorCode State := encodeForwarding s [s.byte0 0, s.fFwd]

/-- The completion step of ENCRQ (R171). -/
def execEncrq (s : State) : Host.Outcome State Fault Refusal := complete s id (encrqBody s)

/-- ENCCH: the CHALLENGE frame without the nonce (R172, R90). -/
def encchBody (s : State) : Except ErrorCode State := encodeForwarding s [s.byte0 1, s.fFwd]

/-- The completion step of ENCCH (R172). -/
def execEncch (s : State) : Host.Outcome State Fault Refusal := complete s id (encchBody s)

/-- ENCCH.N: the CHALLENGE frame with the nonce (R172, R90). -/
def encchNBody (s : State) : Except ErrorCode State := encodeForwarding s (s.byte0 1 :: s.fFwd :: s.nonce)

/-- The completion step of ENCCH.N (R172). -/
def execEncchN (s : State) : Host.Outcome State Fault Refusal := complete s id (encchNBody s)

/-- F_FRAG.SEQ (R40). -/
def State.fragSeq (s : State) : Nat := (s.fFrag.extractLsb' 4 4).toNat

/-- The frame of fragment `q` of the wrapped key in `BUF[0..32)`:
`byte0(2) ‖ (q << 4 | len) ‖ BUF[6q .. 6q+len)` (R91, R173). -/
def State.fragmentFrame (s : State) (q : Nat) : List Byte :=
  s.byte0 2 :: BitVec.ofNat 8 (16 * q + fragLen q) :: s.mem.readBytes (bufBase + 6 * q) (fragLen q)

/-- ENCFRAG: fragment F_FRAG.SEQ of the wrapped key; BADLEN, then the two RANGE checks (R173). -/
def encfragBody (s : State) : Except ErrorCode State :=
  if s.len.toNat ≠ 32 then .error .badlen
  else if s.inRange s.fDst then
    if 5 < s.fragSeq then .error .range
    else .ok (s.emitFrame s.txid (s.fragmentFrame s.fragSeq))
  else .error .range

/-- The completion step of ENCFRAG (R173). -/
def execEncfrag (s : State) : Host.Outcome State Fault Refusal := complete s id (encfragBody s)

/-- ENCACK: the ACK frame (R174, R92). -/
def encackBody (s : State) : Except ErrorCode State :=
  encodeTo s (s.byte0 2 :: (leBytes 3 s.fMask.toNat ++ s.tagBytes))

/-- The completion step of ENCACK (R174). -/
def execEncack (s : State) : Host.Outcome State Fault Refusal := complete s id (encackBody s)

/-- ENCSIG16: the 16-bit SIGNAL frame; `F_VALUE[31:16]` is dropped (R175, R93). -/
def encsig16Body (s : State) : Except ErrorCode State :=
  encodeTo s (s.byte0 3 :: s.fSignum :: (leBytes 2 s.fValue.toNat ++ s.tagBytes))

/-- The completion step of ENCSIG16 (R175). -/
def execEncsig16 (s : State) : Host.Outcome State Fault Refusal := complete s id (encsig16Body s)

/-- ENCAREQ: the AUTH-REQUEST frame without the MAC (R176, R94). -/
def encareqBody (s : State) : Except ErrorCode State :=
  encodeTo s [s.byte0 3, s.fSignum, s.fPresc]

/-- The completion step of ENCAREQ (R176). -/
def execEncareq (s : State) : Host.Outcome State Fault Refusal := complete s id (encareqBody s)

/-- ENCAREQ.M: the AUTH-REQUEST frame with the MAC (R176, R94). -/
def encareqMBody (s : State) : Except ErrorCode State :=
  encodeTo s (s.byte0 3 :: s.fSignum :: s.fPresc :: s.tagBytes)

/-- The completion step of ENCAREQ.M (R176). -/
def execEncareqM (s : State) : Host.Outcome State Fault Refusal := complete s id (encareqMBody s)

/-- ENCSIG32: the secure 32-bit signal frame, under F_CANID (R177, R95). -/
def encsig32Body (s : State) : Except ErrorCode State :=
  .ok (s.emitFrame s.fCanid (leBytes 4 s.fValue.toNat ++ s.tagBytes))

/-- The completion step of ENCSIG32 (R177). -/
def execEncsig32 (s : State) : Host.Outcome State Fault Refusal := complete s id (encsig32Body s)

/-- ENCPLAIN: the non-secure signal frame, under F_CANID (R178, R96). -/
def encplainBody (s : State) : Except ErrorCode State :=
  .ok (s.emitFrame s.fCanid (leBytes 4 s.fValue.toNat))

/-- The completion step of ENCPLAIN (R178). -/
def execEncplain (s : State) : Host.Outcome State Fault Refusal := complete s id (encplainBody s)

/-- ENCTIME: the time frame without the MAC, under F_CANID (R179, R97). -/
def enctimeBody (s : State) : Except ErrorCode State :=
  .ok (s.emitFrame s.fCanid (leBytes 4 s.fTime.toNat))

/-- The completion step of ENCTIME (R179). -/
def execEnctime (s : State) : Host.Outcome State Fault Refusal := complete s id (enctimeBody s)

/-- ENCTIME.M: the time frame with the MAC, under F_CANID (R179, R97). -/
def enctimeMBody (s : State) : Except ErrorCode State :=
  .ok (s.emitFrame s.fCanid (leBytes 4 s.fTime.toNat ++ s.tagBytes))

/-- The completion step of ENCTIME.M (R179). -/
def execEnctimeM (s : State) : Host.Outcome State Fault Refusal := complete s id (enctimeMBody s)

end Sys2Proof.Machine
end

