-- ==== Sys2Proof/Machine/Lifecycle.lean ====
section
/-! DEFINITION. NOP (R116), and the completion of a word that names no command (R112, R261). -/

namespace Sys2Proof.Machine

/-- NOP: no register but STATUS's lifecycle fields (R116). -/
def execNop (s : State) : Host.Outcome State Fault Refusal := complete s id (.ok s)

/-- The completion step of an illegal word: ILLEGAL, and nothing else changes, MATCH, MOFS and KIND included
(R112, R261). -/
def completeIllegal (s : State) : Host.Outcome State Fault Refusal := complete s id (.error .illegal)

end Sys2Proof.Machine
end

