-- ==== Sys2Proof/Machine/Plaintext.lean ====
section
/-! DEFINITION. The builders of MAC plaintexts and of the key-wrap plaintext (spec/44_mac_plaintext.md). -/

namespace Sys2Proof.Machine

/-- A MAC plaintext put at the start of BUF: `BUF[0..n) <- S`, `LEN <- n`, `TPOS <- 0` (R240). -/
def State.setPlaintext (s : State) (bs : List Byte) : State :=
  { s.writeBuf 0 bs with len := BitVec.ofNat 7 bs.length, tpos := 0 }

/-- `NodeCheck(F_SRC)`, `NodeCheck(F_DST)` and then the plaintext (R240). -/
def buildBetween (s : State) (bs : List Byte) : Except ErrorCode State :=
  if s.inRange s.fSrc ∧ s.inRange s.fDst then .ok (s.setPlaintext bs) else .error .range

/-- `T4 ‖ src ‖ dst`: the time and the two NodeIds a signature between nodes binds (R240). -/
def State.boundHeader (s : State) : List Byte := leBytes 4 s.time.toNat ++ [s.fSrc, s.fDst]

/-- PTSIG16: the time, the two NodeIds and the 16-bit value (R241). -/
def ptsig16Body (s : State) : Except ErrorCode State :=
  buildBetween s (s.boundHeader ++ leBytes 2 s.fValue.toNat)

/-- The completion step of PTSIG16 (R241). -/
def execPtsig16 (s : State) : Host.Outcome State Fault Refusal := complete s id (ptsig16Body s)

/-- PTSIG32: the time, the secure identifier and the value (R242). -/
def ptsig32Body (s : State) : Except ErrorCode State :=
  .ok (s.setPlaintext (leBytes 4 s.time.toNat ++ s.canIdBytes ++ leBytes 4 s.fValue.toNat))

/-- The completion step of PTSIG32 (R242). -/
def execPtsig32 (s : State) : Host.Outcome State Fault Refusal := complete s id (ptsig32Body s)

/-- PTACK: the time, the two NodeIds and the 24-bit mask (R243). -/
def ptackBody (s : State) : Except ErrorCode State :=
  buildBetween s (s.boundHeader ++ leBytes 3 s.fMask.toNat)

/-- The completion step of PTACK (R243). -/
def execPtack (s : State) : Host.Outcome State Fault Refusal := complete s id (ptackBody s)

/-- PTAREQ: the time, the two NodeIds, the signal number and the prescaler (R244). -/
def ptareqBody (s : State) : Except ErrorCode State :=
  buildBetween s (s.boundHeader ++ [s.fSignum, s.fPresc])

/-- The completion step of PTAREQ (R244). -/
def execPtareq (s : State) : Host.Outcome State Fault Refusal := complete s id (ptareqBody s)

/-- PTTIME: F_TIME (not TIME), the nonce and the Time Server's identifier (R245). -/
def pttimeBody (s : State) : Except ErrorCode State :=
  .ok (s.setPlaintext (leBytes 4 s.fTime.toNat ++ s.nonce ++ s.canIdBytes))

/-- The completion step of PTTIME (R245). -/
def execPttime (s : State) : Host.Outcome State Fault Refusal := complete s id (pttimeBody s)

/-- PTSKEY: `BUF[16..24)` takes the requester, the peer and the nonce, LEN 24; the session key in `BUF[0..16)` and TPOS
keep their values (R246). -/
def ptskeyBody (s : State) : Except ErrorCode State :=
  if s.inRange s.fDst ∧ s.inRange s.fFwd then
    .ok { s.writeBuf 16 (s.fDst :: s.fFwd :: s.nonce) with len := 24 }
  else .error .range

/-- The completion step of PTSKEY (R246). -/
def execPtskey (s : State) : Host.Outcome State Fault Refusal := complete s id (ptskeyBody s)

end Sys2Proof.Machine
end

