-- ==== Sys2Proof/Machine/Dispatch.lean ====
section
/-! DEFINITION. The dispatch of a command to its meaning: what the completion step of the command does (R112). -/

namespace Sys2Proof.Machine

/-- The completion step of a command (R112): one arm for each row of spec/opcode_table.json. -/
def exec (i : Instr) (s : State) : Host.Outcome State Fault Refusal :=
  match i with
  | .nop => Sys2Proof.Machine.execNop s
  | .cmac => Sys2Proof.Machine.execCmac s
  | .sign => Sys2Proof.Machine.execSign s
  | .verify => Sys2Proof.Machine.execVerify s
  | .verifyW => Sys2Proof.Machine.execVerifyW s
  | .gensub => Sys2Proof.Machine.execGensub s
  | .wrap => Sys2Proof.Machine.execWrap s
  | .unwrap => Sys2Proof.Machine.execUnwrap s
  | .unwrapr => Sys2Proof.Machine.execUnwrapr s
  | .encrq => Sys2Proof.Machine.execEncrq s
  | .encch => Sys2Proof.Machine.execEncch s
  | .encchN => Sys2Proof.Machine.execEncchN s
  | .encfrag => Sys2Proof.Machine.execEncfrag s
  | .encack => Sys2Proof.Machine.execEncack s
  | .encsig16 => Sys2Proof.Machine.execEncsig16 s
  | .encareq => Sys2Proof.Machine.execEncareq s
  | .encareqM => Sys2Proof.Machine.execEncareqM s
  | .encsig32 => Sys2Proof.Machine.execEncsig32 s
  | .encplain => Sys2Proof.Machine.execEncplain s
  | .enctime => Sys2Proof.Machine.execEnctime s
  | .enctimeM => Sys2Proof.Machine.execEnctimeM s
  | .deccrypt => Sys2Proof.Machine.execDeccrypt s
  | .deccryptK => Sys2Proof.Machine.execDeccryptK s
  | .decsig32 => Sys2Proof.Machine.execDecsig32 s
  | .decplain => Sys2Proof.Machine.execDecplain s
  | .dectime => Sys2Proof.Machine.execDectime s
  | .fragst => Sys2Proof.Machine.execFragst s
  | .rclr => Sys2Proof.Machine.execRclr s
  | .ptsig16 => Sys2Proof.Machine.execPtsig16 s
  | .ptsig32 => Sys2Proof.Machine.execPtsig32 s
  | .ptack => Sys2Proof.Machine.execPtack s
  | .ptareq => Sys2Proof.Machine.execPtareq s
  | .pttime => Sys2Proof.Machine.execPttime s
  | .ptskey => Sys2Proof.Machine.execPtskey s

end Sys2Proof.Machine
end

