-- ==== Sys2Proof/Machine/Step.lean ====
section
/-! DEFINITION. One step of the machine: the completion step of the command in flight when it is due, else the next
event from outside (spec/40_command_cycle.md, "Agents"). -/

namespace Sys2Proof.Machine

/-- The block's one kind of step: the command PENDING is performed, or ends in ILLEGAL where the word names none
(R112). -/
def completionStep (s : State) : Host.Outcome State Fault Refusal :=
  match decode s.pending with
  | .ok i => exec i s
  | .error _ => completeIllegal s

/-- One step. The completion step is enabled only while BUSY = 1 and comes when the latency has run out; until then,
and while no command is in flight, the host's accesses are performed in order, one at a time (R70, R112). A machine no
event reaches keeps its registers (R280). -/
def step (s : State) : Host.Outcome State Fault Refusal :=
  if s.busy && s.latency == 0 then completionStep s
  else
    match s.inputs with
    | [] => .next s.tick
    | e :: rest => hostStep { s.tick with inputs := rest } e

/-- The state with the command word placed where the step takes its next instruction: issued, its completion due at the
very next step (R110, R112). -/
def State.withFetchWord (s : State) (nbits w : Nat) : State :=
  { s with pending := BitVec.ofNat 32 (w % 2 ^ nbits), busy := true, done := false, latency := 0 }

end Sys2Proof.Machine
end

