-- ==== Sys2Proof/Machine/HostProgram.lean ====
section
/-! DEFINITION. The host-program syntax (R85) and its pseudo-instructions (R86), as the host accesses they stand for. -/

namespace Sys2Proof.Machine

/-- `wr REG, imm` (R85). -/
def wr (r : Reg) (v : Word) : HostEvent :=
  .access { addr := Config.base + regOffset r, width := .word, op := .write v }

/-- `rd REG` (R85). -/
def rd (r : Reg) : HostEvent :=
  .access { addr := Config.base + regOffset r, width := .word, op := .read }

/-- A mnemonic line: the write of the command's word to CMD (R85). -/
def issueLine (i : Instr) : HostEvent := wr .cmd (encode i)

/-- `wait`: one read of STATUS a step, repeated until bit 0 of the value read is 0 (R86; `State.waitRound`). -/
def waitLine : HostEvent := .wait

/-- `do MNEMONIC[.F]`: the mnemonic line, then `wait` (R86). -/
def doCommand (i : Instr) : List HostEvent := [issueLine i, waitLine]

/-- `ack`: clear DONE and BUSYERR (R86). -/
def ackLine : HostEvent := wr .status 0x00000042

/-- `fromLE(S[4i..4i+4))` of a byte string padded with zero bytes. -/
def wordOf (bs : List Byte) (i : Nat) : Word :=
  BitVec.ofNat 32 (fromLE (slice bs (4 * i) (4 * i + 4)))

/-- `wrkey S`, for 16 or 24 bytes, the host supplying its own copy of CTRL; no other length has an expansion (R86). -/
def wrkey (ctrl : Word) (bs : List Byte) : Option (List HostEvent) :=
  if bs.length = 16 then
    some [wr (.key 0) (wordOf bs 0), wr (.key 1) (wordOf bs 1), wr (.key 2) (wordOf bs 2), wr (.key 3) (wordOf bs 3),
      wr .ctrl (ctrl &&& ~~~0x30#32)]
  else if bs.length = 24 then
    some [wr (.key 0) (wordOf bs 0), wr (.key 1) (wordOf bs 1), wr (.key 2) (wordOf bs 2), wr (.key 3) (wordOf bs 3),
      wr (.key 4) (wordOf bs 4), wr (.key 5) (wordOf bs 5), wr .ctrl ((ctrl &&& ~~~0x30#32) ||| 0x10#32)]
  else none

/-- The lines of `wrbuf` that write BUF: one for each started word of the string (R86). -/
def bufLines (bs : List Byte) : List HostEvent :=
  (List.range ((bs.length + 3) / 4)).map fun i => wr (.buf (Fin.ofNat 16 i)) (wordOf bs i)

/-- `wrbuf S`, for at most 64 bytes (R86). -/
def wrbuf (bs : List Byte) : Option (List HostEvent) :=
  if bs.length ≤ 64 then some (bufLines bs ++ [wr .len (BitVec.ofNat 32 bs.length)]) else none

/-- `wrframe id, dlc, S` (R86). -/
def wrframe (id dlc : Word) (bs : List Byte) : List HostEvent :=
  [wr .frameId id, wr .frameDlc dlc, wr (.frameD 0) (wordOf bs 0), wr (.frameD 1) (wordOf bs 1)]

/-- `wrnonce S`, for 6 bytes (R86). -/
def wrnonce (bs : List Byte) : Option (List HostEvent) :=
  if bs.length = 6 then some [wr .fNonce0 (wordOf bs 0), wr .fNonce1 (wordOf bs 1)] else none

end Sys2Proof.Machine
end

