-- ==== Sys2Proof/Safety.lean ====
section
/-! DEFINITION. The terms the statements use: the invariant of the machine, what the spec's tables say a command may
write and how it may end, the frame of a command, and the delivery of frames to a block. -/

namespace Sys2Proof.Machine

/-! ## The invariant -/

/-- The offset belongs to a byte-array register: KEY, MAC, FRAME_D, BUF or REASM (spec/10_state.md section 1). -/
def arrayOffset (a : Nat) : Bool :=
  (0x080 ≤ a && a < 0x098) || (0x0A0 ≤ a && a < 0x0B0) || (0x0B8 ≤ a && a < 0x0C0) || (0x100 ≤ a && a < 0x160)

/-- What holds of the block in every state a run reaches. -/
structure State.Inv (s : State) : Prop where
  /-- The byte-array registers are held in the canonical form. -/
  memCanonical : Memory.wf s.mem
  /-- Nothing is held outside the byte-array registers. -/
  memInArrays : ∀ c ∈ s.mem, arrayOffset c.1 = true
  /-- NODECNT is legal: 1 to 64 (R25). -/
  nodeCntLegal : 1 ≤ s.nodeCnt.toNat ∧ s.nodeCnt.toNat ≤ 64
  /-- ERRCODE is one of the codes 0 to 7 (R260). -/
  errCodeKnown : s.errCode.toNat ≤ 7
  /-- KIND is one of the codes 0 to 12 (R98). -/
  kindKnown : s.kind.toNat ≤ 12
  /-- DONE is 0 while BUSY is 1 (R118, "DONE is already 0"). -/
  doneNotBusy : s.busy = true → s.done = false
  /-- MOFS is 0 unless the last VERIFY matched (R23, R136). -/
  mofsOnlyMatched : s.mofs ≠ 0 → s.matched = true

/-! ## Events from outside -/

/-- A `wait` loop, or a host access to the window that is not a write of CTRL with SRST = 1, so that it neither resets
the block nor leaves the window. -/
def harmless : HostEvent → Prop
  | .resetInput => False
  | .wait => True
  | .access a =>
    ∃ off, windowOffset a.addr = some off ∧
      (∀ v, a.op = .write v → a.accepted = true → off = regOffset .ctrl → v.getLsbD 0 = false)

/-! ## What the spec's tables say of each command -/

/-- The five decoder commands and the two forms of DECCRYPT among them: the commands that write KIND (R23). -/
def isDecoder : Instr → Bool
  | .deccrypt | .deccryptK | .decsig32 | .decplain | .dectime | .fragst => true
  | _ => false

/-- The two forms of VERIFY: the commands that write MATCH and MOFS (R23). -/
def isVerify : Instr → Bool
  | .verify | .verifyW => true
  | _ => false

/-- The error codes a command can end with besides OK: the column "commands that can raise it" of R260. -/
def possibleErrors : Instr → List ErrorCode
  | .nop | .encsig32 | .encplain | .enctime | .enctimeM | .rclr | .ptsig32 | .pttime => []
  | .cmac | .sign | .verify | .verifyW | .wrap => [.keylen, .badlen]
  | .gensub => [.keylen]
  | .unwrap => [.keylen, .badlen, .icv]
  | .unwrapr => [.keylen, .incomplete, .icv]
  | .encrq | .encch | .encchN | .encack | .encsig16 | .encareq | .encareqM => [.range]
  | .encfrag => [.badlen, .range]
  | .deccrypt | .deccryptK | .decsig32 | .decplain | .dectime | .fragst => [.malformed]
  | .ptsig16 | .ptack | .ptareq | .ptskey => [.range]

/-- The registers, STATUS apart, a command may write: the table of spec/10_state.md section 2. -/
def mayWrite (i : Instr) : Reg → Bool
  | .mac _ => i == .cmac || i == .sign
  | .tag => i == .sign || i == .deccrypt || i == .deccryptK || i == .decsig32 || i == .dectime
  | .buf _ | .len => i == .gensub || i == .wrap || i == .unwrap || i == .unwrapr || i == .ptsig16 || i == .ptsig32 ||
      i == .ptack || i == .ptareq || i == .pttime || i == .ptskey
  | .tpos => i == .ptsig16 || i == .ptsig32 || i == .ptack || i == .ptareq || i == .pttime
  | .frameId | .frameDlc | .frameD _ => i == .encrq || i == .encch || i == .encchN || i == .encfrag || i == .encack ||
      i == .encsig16 || i == .encareq || i == .encareqM || i == .encsig32 || i == .encplain || i == .enctime ||
      i == .enctimeM
  | .fType | .fDst => i == .deccrypt || i == .deccryptK || i == .fragst
  | .fFwd | .fSignum | .fPresc | .fMask | .fNonce0 | .fNonce1 => i == .deccrypt || i == .deccryptK
  | .fFrag => i == .deccryptK || i == .fragst
  | .fValue => i == .deccrypt || i == .deccryptK || i == .decsig32 || i == .decplain
  | .fTime => i == .dectime
  | .reasm _ => i == .fragst || i == .rclr
  | .id | .ctrl | .status | .cmd | .nodeCnt | .txid | .time | .fSrc | .fCanid | .key _ => false

/-! ## The register map's own columns -/

/-- The bits of a register that are not reserved (spec/10_state.md section 1 and the rules it names). -/
def definedBits : Reg → Word
  | .id | .cmd | .time | .fValue | .fTime | .fNonce0 | .tag | .key _ | .mac _ | .frameD _ | .buf _ | .reasm _ =>
    0xFFFFFFFF
  | .ctrl => 0x00000033
  | .status => 0x0F7FFF7F
  | .nodeCnt | .len => 0x0000007F
  | .txid | .fCanid | .frameId => 0x9FFFFFFF
  | .tpos => 0x0000003F
  | .fType => 0x00000003
  | .fDst | .fSrc | .fFwd | .fFrag | .fSignum | .fPresc => 0x000000FF
  | .fMask => 0x00FFFFFF
  | .fNonce1 => 0x0000FFFF
  | .frameDlc => 0x0000000F

/-- The registers that are read-write without a side effect or a legality check (spec/10_state.md section 1, RW). -/
def plainReadWrite : Reg → Bool
  | .txid | .time | .len | .tpos | .fDst | .fSrc | .fFwd | .fFrag | .fSignum | .fPresc | .fValue | .fMask | .fTime
  | .fCanid | .fNonce0 | .fNonce1 | .tag | .frameId | .frameDlc | .frameD _ | .buf _ => true
  | .id | .ctrl | .status | .cmd | .nodeCnt | .fType | .key _ | .mac _ | .reasm _ => false

/-- The read-only registers (spec/10_state.md section 1, RO), STATUS apart. -/
def readOnly : Reg → Bool
  | .id | .fType | .mac _ | .reasm _ => true
  | .ctrl | .status | .cmd | .nodeCnt | .txid | .time | .len | .tpos | .fDst | .fSrc | .fFwd | .fFrag | .fSignum
  | .fPresc | .fValue | .fMask | .fTime | .fCanid | .fNonce0 | .fNonce1 | .tag | .key _ | .frameId | .frameDlc
  | .frameD _ | .buf _ => false

/-- The reserved offsets of the window (R49). -/
def reservedOffset (off : Nat) : Bool :=
  (0x024 ≤ off && off ≤ 0x03C) || (0x078 ≤ off && off ≤ 0x07C) || (0x098 ≤ off && off ≤ 0x09C) ||
    (0x0C0 ≤ off && off ≤ 0x0FC) || (0x160 ≤ off && off ≤ 0x1FC)

/-! ## The formats of crypt frames -/

/-- A NodeId is below NODECNT (R25). -/
def State.nodeBelow (s : State) (n : Nat) : Prop := n < s.nodeCnt.toNat

/-- The frame in FRAME_* is a crypt frame of the format, as R88 to R94 and R201 to R203 describe it; `k` is the flag
that says the sender is the Key Server. -/
def State.frameFits (s : State) (k : Bool) (f : Kind) : Prop :=
  let dlc := s.frameDlc.toNat
  let ty := (s.fb 0).toNat / 64
  let seq := (s.fb 1).toNat / 16
  let flen := (s.fb 1).toNat % 16
  s.nodeBelow ((s.fb 0).toNat % 64) ∧
    match f with
    | .reqchal => ty = 0 ∧ dlc = 2 ∧ s.nodeBelow (s.fb 1).toNat
    | .chal => ty = 1 ∧ dlc = 2 ∧ s.nodeBelow (s.fb 1).toNat
    | .chalNonce => ty = 1 ∧ dlc = 8 ∧ s.nodeBelow (s.fb 1).toNat
    | .frag => ty = 2 ∧ k = true ∧ dlc ≤ 8 ∧ 2 + flen ≤ dlc ∧ ((seq ≤ 4 ∧ flen = 6) ∨ (seq = 5 ∧ flen = 2))
    | .ack => ty = 2 ∧ k = false ∧ dlc = 8
    | .sig16 => ty = 3 ∧ dlc = 8
    | .areq => ty = 3 ∧ dlc = 3
    | .areqMac => ty = 3 ∧ dlc = 7
    | .none | .sig32 | .plain | .time | .timeMac => False

/-! ## Frames of commands -/

/-- Every byte outside the `n` bytes from offset `a` reads as before. -/
def Memory.sameOutside (m m' : Memory) (a n : Nat) : Prop :=
  ∀ b, ¬ (a ≤ b ∧ b < a + n) → Memory.read m' b = Memory.read m b

/-- The command ends in the error `code`: ERRCODE takes it, BUSY falls, DONE rises, and nothing else changes. -/
def endsInError (i : Instr) (s : State) (code : BitVec 8) : Prop :=
  exec i s = .next { s with errCode := code, busy := false, done := true }

/-- The command completes, and what it leaves is the frame `payload` under the identifier `id`: FRAME_ID, FRAME_DLC, the
payload's bytes and zeros after them; nothing else changes but the lifecycle fields. -/
def emitsFrame (i : Instr) (s : State) (id : CanId) (payload : List Byte) : Prop :=
  ∃ t, exec i s = .next t ∧
    t = { s with frameId := id, frameDlc := BitVec.ofNat 4 payload.length, mem := t.mem,
                 errCode := 0, busy := false, done := true } ∧
    t.fbBytes 0 8 = payload ++ zeros (8 - payload.length) ∧
    Memory.sameOutside s.mem t.mem frameBase 8

/-- The command completes, and what it leaves is the byte string `bs` at the start of BUF, LEN its length and TPOS 0;
nothing else changes but the lifecycle fields. -/
def buildsPlaintext (i : Instr) (s : State) (bs : List Byte) : Prop :=
  ∃ t, exec i s = .next t ∧
    t = { s with len := BitVec.ofNat 7 bs.length, tpos := 0, mem := t.mem,
                 errCode := 0, busy := false, done := true } ∧
    t.bufBytes bs.length = bs ∧
    Memory.sameOutside s.mem t.mem bufBase bs.length

/-- The command completes as a decoder that recognised `kind`: `fields` names the field registers it wrote, and nothing
else changes but KIND and the lifecycle fields. -/
def decodesTo (i : Instr) (s : State) (kind : BitVec 4) (fields : State) : Prop :=
  exec i s = .next { fields with kind := kind, errCode := 0, busy := false, done := true }

/-- The command ends in MALFORMED: KIND is cleared, and nothing else changes but the lifecycle fields (R200). -/
def endsMalformed (i : Instr) (s : State) : Prop :=
  exec i s = .next { s with kind := 0, errCode := 5, busy := false, done := true }

/-! ## The index-based loops of key wrap -/

/-- The loops of R139 as one count: step `c` (from 0) works on register `c mod n` with `t = c + 1`, which is `n·j + i` for
the `i` and `j` of the rule. -/
def wrapLoop (enc : Block → Block) (n : Nat) (start : Semiblock × List Semiblock) : Semiblock × List Semiblock :=
  (List.range (6 * n)).foldl (fun st c =>
    let b := enc (st.1 ++ st.2.getD (c % n) 0)
    (blockHigh b ^^^ BitVec.ofNat 64 (c + 1), st.2.set (c % n) (blockLow b))) start

/-- The loops of R140 as one count, downward. -/
def unwrapLoop (dec : Block → Block) (n : Nat) (start : Semiblock × List Semiblock) : Semiblock × List Semiblock :=
  (List.range (6 * n)).reverse.foldl (fun st c =>
    let b := dec ((st.1 ^^^ BitVec.ofNat 64 (c + 1)) ++ st.2.getD (c % n) 0)
    (blockHigh b, st.2.set (c % n) (blockLow b))) start

/-- `R[i]` for `i` in `1..n`: the 8-byte pieces of a string, the first at `a`. -/
def piecesFrom (bs : List Byte) (a n : Nat) : List Semiblock :=
  (List.range n).map fun i => semiOf (slice bs (a + 8 * i) (a + 8 * i + 8))

/-! ## Frames delivered to a block -/

/-- A received frame put into FRAME_DLC and FRAME_D: its length and its payload, padded to 8 bytes. -/
def State.withFrame (s : State) (dlc : Nat) (bs : List Byte) : State :=
  { s with frameDlc := BitVec.ofNat 4 dlc, mem := s.mem.writeBytes frameBase (bs ++ zeros (8 - bs.length)) }

/-- Fragment `q` of the 32-byte wrapped key `w` sent to node `dst`: the payload of R91. -/
def fragmentOf (w : List Byte) (dst : BitVec 6) (q : Nat) : List Byte :=
  (2#2 ++ dst) :: BitVec.ofNat 8 (16 * q + fragLen q) :: slice w (6 * q) (6 * q + fragLen q)

/-- The fragments `order` of `w` delivered one after the other, each stored with FRAGST. -/
def collectFragments (w : List Byte) (dst : BitVec 6) : List Nat → State → Host.Outcome State Fault Refusal
  | [], s => .next s
  | q :: rest, s =>
    match exec .fragst (s.withFrame (fragmentOf w dst q).length (fragmentOf w dst q)) with
    | .next t => collectFragments w dst rest t
    | .fault r => .fault r
    | .refused r => .refused r

end Sys2Proof.Machine
end

