-- ==== Sys2Proof/Certificates/Slice0/Obligations.lean ====
section
/-! DEFINITION. The statements about the machine, for the provers (OBLIGATIONS.json lists them). Each docstring names
the rules of spec/ the statement formalises. Where a statement equates a whole next state with BUSY = 0, the equation
also says what PENDING holds there; the spec leaves that at any value, and it is the model's choice, log entry 1. -/

open Sys2Proof Sys2Proof.Machine

/-! ## Encoding -/

/-- Words written out from the opcode map decode to their commands, and words the map does not hold are rejected by
name (30_encoding.md A.2, R81 and R83; vectors C3 to C6). -/
def Obligations.WrittenWordsDecode : Prop :=
  decode 0x00000000#32 = .ok .nop ∧ decode 0x00000002#32 = .ok .sign ∧ decode 0x00000103#32 = .ok .verifyW ∧
  decode 0x00000006#32 = .ok .unwrap ∧ decode 0x00000111#32 = .ok .encchN ∧ decode 0x00000118#32 = .ok .enctimeM ∧
  decode 0x00000120#32 = .ok .deccryptK ∧ decode 0x00000024#32 = .ok .fragst ∧ decode 0x00000035#32 = .ok .ptskey ∧
  decode 0x00000008#32 = .error .reservedOpcode ∧ decode 0x00000201#32 = .error .reservedBits ∧
  decode 0x00000101#32 = .error .flagNotDefined

/-- Decoding and encoding agree on every word and every command: a word names a command exactly when it is that
command's word of the opcode table (R80 to R82, opcode_table.json). -/
def Obligations.DecodeAndEncodeAgree : Prop :=
  ∀ (w : Word) (i : Instr), decode w = .ok i ↔ w = encode i

/-- R80 and R261: the fields of a command word; a word names a command exactly when its reserved bits are 0, its opcode
is one of the table's and F is 0 or the opcode defines a flag; every other word completes with ILLEGAL, and nothing but
ERRCODE, BUSY and DONE (and ERR with ERRCODE) changes. -/
def Obligations.LegalWordsNameCommandsOthersEndIllegal : Prop :=
  ∀ w : Word,
    let opc := (w.extractLsb' 0 8).toNat
    let legal := w.extractLsb' 9 23 = 0 ∧
      (opc ≤ 0x07 ∨ (0x10 ≤ opc ∧ opc ≤ 0x18) ∨ (0x20 ≤ opc ∧ opc ≤ 0x25) ∨ (0x30 ≤ opc ∧ opc ≤ 0x35)) ∧
      (w.getLsbD 8 = false ∨ opc ∈ [0x03, 0x11, 0x15, 0x18, 0x20])
    commandFields w = { opc := w.extractLsb' 0 8, f := w.getLsbD 8, rsv := w.extractLsb' 9 23 } ∧
    ((commandFields w).legal = true ↔ legal) ∧
    (legal ↔ ∃ i, decode w = .ok i) ∧
    ∀ s : State, s.busy = true → s.latency = 0 → s.pending = w → ¬ legal →
      step s = .next { s with errCode := 1, busy := false, done := true }

/-! ## The command cycle -/

/-- A step runs the decoded command: while a command is in flight and its completion is due, the step is the completion
step of the command PENDING names (R112). -/
def Obligations.StepRunsTheDecodedCommand : Prop :=
  ∀ (s : State) (i : Instr), s.busy = true → s.latency = 0 → decode s.pending = .ok i → i.wf = true →
    step s = exec i s

/-- R110: a host write of `w` to CMD while BUSY = 0 puts `w` into PENDING, raises BUSY and clears DONE in one step,
whatever the word; no other field of STATUS and no register changes, and the interrupt line falls. (How long the command
takes, R3, is the free `Config.cmdLatency`, the model's form of it, log entry 4; that it depends on the count of issued
commands alone is the model's choice, log entry 16.) -/
def Obligations.IssueTakesTheCommandWord : Prop :=
  ∀ (s : State) (a : HostAccess) (w : Word) (rest : List HostEvent),
    s.busy = false → s.inputs = .access a :: rest → windowOffset a.addr = some 0x00C → a.accepted = true →
    a.op = .write w →
    ∃ t, step s = .next t ∧
      t = { s with pending := w, busy := true, done := false, latency := Config.cmdLatency s.issued,
                   issued := s.issued + 1, inputs := rest, answer := .written } ∧
      t.irq = false

/-- R111 and R118: what a host write does while BUSY = 1: STATUS acts on its W1C bits, CTRL with SRST resets the block,
every other write (CMD among them) is lost and sets BUSYERR; no completion clears BUSYERR, and only a write of STATUS with
bit 6 set or a reset does. (What PENDING and the model's own fields hold after the reset is the model's choice, log
entries 1 and 12.) -/
def Obligations.WritesWhileBusy : Prop :=
  (∀ (s : State) (a : HostAccess) (off : Nat) (v : Word) (rest : List HostEvent),
    s.busy = true → s.latency ≠ 0 → s.inputs = .access a :: rest → windowOffset a.addr = some off →
    a.accepted = true → a.op = .write v →
    (off = 0x008 →
      step s = .next { s with done := s.done && !v.getLsbD 1, busyErr := s.busyErr && !v.getLsbD 6,
                              inputs := rest, latency := s.latency - 1, answer := .written }) ∧
    (off = 0x004 ∧ v.getLsbD 0 = true →
      step s = .next { State.reset with inputs := rest, issued := s.issued, draws := s.draws, answer := .written }) ∧
    (off ≠ 0x008 ∧ ¬ (off = 0x004 ∧ v.getLsbD 0 = true) →
      step s = .next { s with busyErr := true, inputs := rest, latency := s.latency - 1, answer := .written })) ∧
  (∀ s t : State, step s = .next t → s.busy = true → s.latency = 0 → t.busyErr = s.busyErr) ∧
  (∀ s t : State, step s = .next t → s.busyErr = true → t.busyErr = false →
    ∃ e rest, s.inputs = e :: rest ∧
      (e = .resetInput ∨ ∃ a v, e = .access a ∧ a.op = .write v ∧
        ((windowOffset a.addr = some 0x008 ∧ v.getLsbD 6 = true) ∨
          (windowOffset a.addr = some 0x004 ∧ v.getLsbD 0 = true))))

/-- R61 and R117: a host read of ID, CTRL or STATUS answers the register's value, busy or not; while BUSY = 0 a read at a
register's offset answers that register's value, and one at an offset of no register 0 (R49). While BUSY = 1 any other
read answers a free value; that reserved offsets, CMD and KEY are among them is the model's reading of R117, log entry 5,
and that the value depends on the count of such reads alone is its choice, log entry 14. No read changes anything of the
block. -/
def Obligations.ReadsWhileBusy : Prop :=
  ∀ (s : State) (a : HostAccess) (off : Nat) (rest : List HostEvent),
    (s.busy = true → s.latency ≠ 0) → s.inputs = .access a :: rest → windowOffset a.addr = some off →
    a.accepted = true → a.op = .read →
    let answers := fun v : Word =>
      step s = .next { s with answer := .data v, inputs := rest, latency := s.latency - 1 }
    (off = 0x000 → answers (s.readReg .id)) ∧
    (off = 0x004 → answers (s.readReg .ctrl)) ∧
    (off = 0x008 → answers (s.readReg .status)) ∧
    (s.busy = false →
      (∀ r, off = regOffset r → answers (s.readReg r)) ∧
      ((∀ r, off ≠ regOffset r) → answers 0)) ∧
    (s.busy = true ∧ off ≠ 0x000 ∧ off ≠ 0x004 ∧ off ≠ 0x008 →
      step s = .next { s with answer := .data (Config.busyRead s.draws), draws := s.draws + 1,
                              inputs := rest, latency := s.latency - 1 })

/-- A command in flight completes after its latency, whatever harmless accesses the host makes meanwhile, and the
registers it reads then are those the host left at issue: only BUSYERR and what is the model's own have changed
(R3, R115, R118, R119). The latency as a number of steps is the model's form of CMD_LATENCY, log entry 4. Each of those
steps performs one access of the host, but for a `wait` loop, which stays until the block is idle (R86). -/
def Obligations.CommandsCompleteOnTheRegistersLeftAtIssue : Prop :=
  ∀ s : State, s.busy = true → s.done = false → (∀ e ∈ s.inputs.take s.latency, harmless e) →
    ∃ u : State, Sys2Proof.core.run s.latency s = .next u ∧
      u = { s with busyErr := u.busyErr, inputs := u.inputs, latency := 0, draws := u.draws,
                   answer := u.answer } ∧
      u.inputs <:+ s.inputs ∧
      ((∀ e ∈ s.inputs.take s.latency, e ≠ .wait) → u.inputs = s.inputs.drop s.latency) ∧
      ∀ i, decode s.pending = .ok i →
        ∃ t, exec i u = .next t ∧ Sys2Proof.core.run (s.latency + 1) s = .next t

/-- R86: `wait` is "repeat `rd STATUS` until bit 0 (BUSY) of the value read is 0": each of its steps answers the host with
STATUS, changes nothing of the block, and the loop goes on exactly while bit 0 of the value read is 1. -/
def Obligations.WaitPollsUntilTheBlockIsIdle : Prop :=
  ∀ (s : State) (rest : List HostEvent), (s.busy = true → s.latency ≠ 0) → s.inputs = waitLine :: rest →
    let v := s.readReg .status
    (v.getLsbD 0 = true →
      step s = .next { s with answer := .data v, inputs := waitLine :: rest, latency := s.latency - 1 }) ∧
    (v.getLsbD 0 = false →
      step s = .next { s with answer := .data v, inputs := rest, latency := s.latency - 1 })

/-- R86, R110 and R112: `do MNEMONIC[.F]` on an idle block issues the command, polls STATUS until its completion, and
leaves what the command's completion step leaves; the host's last read shows the STATUS of that completion. The number of
steps (log entries 4 and 16), and PENDING afterwards (log entry 1), are the model's. -/
def Obligations.DoRunsACommandToItsEnd : Prop :=
  ∀ (s : State) (i : Instr) (rest : List HostEvent), s.busy = false → s.inputs = doCommand i ++ rest →
    ∃ t, exec i s = .next t ∧
      Sys2Proof.core.run (Config.cmdLatency s.issued + 3) s =
        .next { t with pending := encode i, inputs := rest, latency := 0, issued := s.issued + 1,
                       answer := .data (t.readReg .status) }

/-- The outcome of a completion step is a function of the registers alone: neither the host's further accesses, nor the
latency, nor PENDING, BUSY and DONE, nor the counters of the free values have a part in it (R115). That PENDING itself is kept is the
model's choice, log entry 1. -/
def Obligations.CompletionIsAFunctionOfTheRegisters : Prop :=
  ∀ (i : Instr) (s t : State) (b dn : Bool) (p : Word) (ins : List HostEvent) (l n d : Nat) (an : BusAnswer),
    exec i s = .next t →
    exec i { s with busy := b, done := dn, pending := p, inputs := ins, latency := l, issued := n, draws := d,
                    answer := an } =
      .next { t with pending := p, inputs := ins, latency := l, issued := n, draws := d, answer := an }

/-! ## The register window -/

/-- The map of 10_state.md section 1: every register stands at its offset, no two share one, and an aligned offset of the
window holds no register exactly when it is in one of the ranges the map calls reserved (R49). -/
def Obligations.RegistersStandAtTheirOffsets : Prop :=
  (∀ p ∈ ([(0x000, .id), (0x004, .ctrl), (0x008, .status), (0x00C, .cmd), (0x010, .nodeCnt), (0x014, .txid),
      (0x018, .time), (0x01C, .len), (0x020, .tpos), (0x040, .fType), (0x044, .fDst), (0x048, .fSrc), (0x04C, .fFwd),
      (0x050, .fFrag), (0x054, .fSignum), (0x058, .fPresc), (0x05C, .fValue), (0x060, .fMask), (0x064, .fTime),
      (0x068, .fCanid), (0x06C, .fNonce0), (0x070, .fNonce1), (0x074, .tag), (0x0B0, .frameId),
      (0x0B4, .frameDlc)] : List (Nat × Reg)), regOffset p.2 = p.1) ∧
  (∀ i : Fin 6, regOffset (.key i) = 0x080 + 4 * i.val) ∧
  (∀ i : Fin 4, regOffset (.mac i) = 0x0A0 + 4 * i.val) ∧
  (∀ i : Fin 2, regOffset (.frameD i) = 0x0B8 + 4 * i.val) ∧
  (∀ i : Fin 16, regOffset (.buf i) = 0x100 + 4 * i.val) ∧
  (∀ i : Fin 8, regOffset (.reasm i) = 0x140 + 4 * i.val) ∧
  (∀ r r', regOffset r = regOffset r' → r = r') ∧
  (∀ off, off < 0x200 → off % 4 = 0 →
    ((∀ r, off ≠ regOffset r) ↔
      (0x024 ≤ off ∧ off ≤ 0x03C) ∨ (0x078 ≤ off ∧ off ≤ 0x07C) ∨ (0x098 ≤ off ∧ off ≤ 0x09C) ∨
        (0x0C0 ≤ off ∧ off ≤ 0x0FC) ∨ (0x160 ≤ off ∧ off ≤ 0x1FC)))

/-- A host write while BUSY = 0 reaches the register at its offset, and a write of a reserved offset nothing (R62,
R49); the host's accesses are performed one at a time, in order (R70). The offsets themselves are the statement
`RegistersStandAtTheirOffsets`. -/
def Obligations.IdleWritesReachTheirRegister : Prop :=
  ∀ (s : State) (a : HostAccess) (off : Nat) (v : Word) (rest : List HostEvent),
    s.busy = false → s.inputs = .access a :: rest → windowOffset a.addr = some off → a.accepted = true →
    a.op = .write v →
    (∀ r, off = regOffset r →
      step s = .next { ({ s with inputs := rest, latency := s.latency - 1 }).writeReg r v with answer := .written }) ∧
    ((∀ r, off ≠ regOffset r) →
      step s = .next { s with inputs := rest, latency := s.latency - 1, answer := .written })

/-- What a write of each register leaves: a read-write register reads back the bits it defines, and every other register
reads as before; a read-only register keeps its value; the key registers store and read 0 (10_state.md section 1, R62,
R32, R24). -/
def Obligations.RegistersStoreTheirDefinedBits : Prop :=
  ∀ (s : State) (r : Reg) (v : Word),
    (plainReadWrite r = true →
      (s.writeReg r v).readReg r = v &&& definedBits r ∧
      (∀ r', r' ≠ r → (s.writeReg r v).readReg r' = s.readReg r') ∧
      (s.writeReg r v).keyArr 24 = s.keyArr 24) ∧
    (readOnly r = true → s.writeReg r v = s) ∧
    (∀ i : Fin 6, r = .key i →
      s.readReg r = 0 ∧
      (s.writeReg r v).mem.readWord (0x080 + 4 * i.val) = v ∧
      Memory.sameOutside s.mem (s.writeReg r v).mem (0x080 + 4 * i.val) 4 ∧
      s.writeReg r v = { s with mem := (s.writeReg r v).mem }) ∧
    s.readReg .cmd = 0

/-- Reserved offsets read 0 and ignore writes; the reserved bits of every register read 0, and of every register but
NODECNT, whose legality check is R25's, they are ignored by writes (R49). -/
def Obligations.ReservedOffsetsAndBits : Prop :=
  ∀ (s : State) (v : Word),
    (∀ off, reservedOffset off = true → off % 4 = 0 → s.readIdle off = 0 ∧ s.writeIdle off v = s) ∧
    (∀ r, s.readReg r &&& ~~~ definedBits r = 0) ∧
    (∀ r, r ≠ .nodeCnt → s.writeReg r v = s.writeReg r (v &&& definedBits r))

/-- R25: NODECNT takes a written value of 1 to 64 and ignores any other; it reads the count with bits `[31:7]` 0, is 64
after reset, and a NodeId is in range when it is below it. -/
def Obligations.NodeCountTakesOnlyLegalValues : Prop :=
  ∀ (s : State) (v : Word),
    (1 ≤ v.toNat ∧ v.toNat ≤ 64 → s.writeReg .nodeCnt v = { s with nodeCnt := v.extractLsb' 0 7 }) ∧
    (v.toNat = 0 ∨ 64 < v.toNat → s.writeReg .nodeCnt v = s) ∧
    (s.readReg .nodeCnt).toNat = s.nodeCnt.toNat ∧
    (∀ n : Byte, s.inRange n = true ↔ n.toNat < s.nodeCnt.toNat) ∧
    State.reset.readReg .nodeCnt = 0x00000040

/-- R5: in KEY, MAC, FRAME_D, BUF and REASM byte `A[4i+k]` is bits `[8k+7:8k]` of word `i`, read or written; in TAG and
the nonce likewise. -/
def Obligations.ByteArraysPackLittleEndian : Prop :=
  (∀ (m : Memory) (off k : Nat), k < 4 → (m.readWord off).extractLsb' (8 * k) 8 = m.read (off + k)) ∧
  (∀ (m : Memory) (off k : Nat) (v : Word), k < 4 → (m.writeWord off v).read (off + k) = v.extractLsb' (8 * k) 8) ∧
  (∀ s : State, (∀ i, s.readReg (.mac i) = s.mem.readWord (0x0A0 + 4 * i.val)) ∧
    (∀ i, s.readReg (.frameD i) = s.mem.readWord (0x0B8 + 4 * i.val)) ∧
    (∀ i, s.readReg (.buf i) = s.mem.readWord (0x100 + 4 * i.val)) ∧
    (∀ i, s.readReg (.reasm i) = s.mem.readWord (0x140 + 4 * i.val)) ∧
    (∀ i v, (s.writeReg (.key i) v).mem = s.mem.writeWord (0x080 + 4 * i.val) v) ∧
    (∀ i v, (s.writeReg (.frameD i) v).mem = s.mem.writeWord (0x0B8 + 4 * i.val) v) ∧
    (∀ i v, (s.writeReg (.buf i) v).mem = s.mem.writeWord (0x100 + 4 * i.val) v) ∧
    (∀ k, k < 4 → byteAt s.tagBytes k = s.tag.extractLsb' (8 * k) 8) ∧
    (∀ k, k < 4 → byteAt s.nonce k = s.fNonce0.extractLsb' (8 * k) 8) ∧
    (∀ k, k < 2 → byteAt s.nonce (4 + k) = s.fNonce1.extractLsb' (8 * k) 8))

/-- R65 and R269: the window accepts an access exactly when it is 32 bits wide and aligned; any other access of it is
answered with a bus error and changes nothing of the block, BUSYERR included. (That an access of more than 32 bits is one of
these is the model's reading of R269, log entry 15.) -/
def Obligations.OtherAccessesEndInABusError : Prop :=
  ∀ (s : State) (a : HostAccess) (off : Nat) (rest : List HostEvent),
    (a.accepted = true ↔ a.width = .word ∧ a.addr % 4 = 0) ∧
    ((s.busy = true → s.latency ≠ 0) → s.inputs = .access a :: rest → windowOffset a.addr = some off →
      ¬ (a.width = .word ∧ a.addr % 4 = 0) →
      step s = .next { s with answer := .busError, inputs := rest, latency := s.latency - 1 })

/-- The model's own choice (log entry 7): an access outside the 0x200-byte window stops the run with the fault
`outsideWindow`; the window is the 0x200 addresses from BASE, and only address bits `[8:0]` are decoded (R2). -/
def Obligations.AccessesOutsideTheWindowFault : Prop :=
  (∀ addr off : Nat, windowOffset addr = some off ↔ (off < 0x200 ∧ addr = Config.base + off)) ∧
  (∀ (s : State) (a : HostAccess) (rest : List HostEvent), (s.busy = true → s.latency ≠ 0) →
    s.inputs = .access a :: rest → windowOffset a.addr = none → step s = .fault (.outsideWindow a.addr))

/-- No read of the window tells anything of the key: two blocks that differ only in the bytes of KEY answer every read
alike (R32, R276). For a read that R117 leaves unspecified this is the model's choice, log entry 14: its free value is
independent of what the block holds. -/
def Obligations.KeyIsNeverReadBack : Prop :=
  ∀ (s : State) (m : Memory) (a : HostAccess) (off : Nat),
    a.op = .read → Memory.sameOutside s.mem m 0x080 24 →
    (({ s with mem := m } : State).windowAccess a off).answer = (s.windowAccess a off).answer

/-- The pseudo-instructions `ack`, `wrkey`, `wrbuf`, `wrnonce` and `wrframe` leave, on an idle block, what their names say,
and nothing else of the block changed: DONE and BUSYERR clear, the key and its length code, the message padded with zero
bytes to a whole word and its length, the nonce, the frame (30_encoding.md R86). -/
def Obligations.PseudoInstructionsLeaveWhatTheyName : Prop :=
  ∀ (s : State) (rest : List HostEvent), s.busy = false →
    (∃ t, Sys2Proof.core.run 1 { s with inputs := ackLine :: rest } = .next t ∧
      t = { s with done := false, busyErr := false, inputs := rest, latency := s.latency - 1, answer := .written }) ∧
    (∀ (ctrl : Word) (bs : List Byte), ctrl.getLsbD 0 = false → bs.length = 16 ∨ bs.length = 24 →
      ∃ lines t, wrkey ctrl bs = some lines ∧
        Sys2Proof.core.run lines.length { s with inputs := lines ++ rest } = .next t ∧
        t = { s with ie := ctrl.getLsbD 1, klen := if bs.length = 16 then 0 else 1, mem := t.mem, inputs := rest,
                     latency := s.latency - lines.length, answer := .written } ∧
        t.keyArr bs.length = bs ∧ Memory.sameOutside s.mem t.mem 0x080 bs.length) ∧
    (∀ bs : List Byte, bs.length ≤ 64 →
      ∃ lines t, wrbuf bs = some lines ∧
        Sys2Proof.core.run lines.length { s with inputs := lines ++ rest } = .next t ∧
        t = { s with len := BitVec.ofNat 7 bs.length, mem := t.mem, inputs := rest,
                     latency := s.latency - lines.length, answer := .written } ∧
        let size := 4 * ((bs.length + 3) / 4)
        t.bufBytes size = bs ++ zeros (size - bs.length) ∧ Memory.sameOutside s.mem t.mem 0x100 size) ∧
    (∀ bs : List Byte, bs.length = 6 →
      ∃ lines t, wrnonce bs = some lines ∧
        Sys2Proof.core.run lines.length { s with inputs := lines ++ rest } = .next t ∧
        t = { s with fNonce0 := t.fNonce0, fNonce1 := t.fNonce1, inputs := rest,
                     latency := s.latency - lines.length, answer := .written } ∧
        t.nonce = bs) ∧
    (∀ (id dlc : Word) (bs : List Byte), bs.length ≤ 8 →
      ∃ t, Sys2Proof.core.run 4 { s with inputs := wrframe id dlc bs ++ rest } = .next t ∧
        t = { s with frameId := CanId.ofWord id, frameDlc := dlc.extractLsb' 0 4, mem := t.mem, inputs := rest,
                     latency := s.latency - 4, answer := .written } ∧
        t.fbBytes 0 8 = bs ++ zeros (8 - bs.length) ∧ Memory.sameOutside s.mem t.mem 0x0B8 8)

/-! ## STATUS, errors and the interrupt -/

/-- The fields of STATUS and CTRL stand where R22 and R23 put them, ERR and RFULL follow ERRCODE and RMAP, and a write of
STATUS clears DONE by bit 1 and BUSYERR by bit 6 and ignores every other bit. -/
def Obligations.StatusAndCtrlFields : Prop :=
  ∀ s : State,
    (s.readReg .status).getLsbD 0 = s.busy ∧ (s.readReg .status).getLsbD 1 = s.done ∧
    ((s.readReg .status).getLsbD 2 = true ↔ s.errCode ≠ 0) ∧ (s.readReg .status).getLsbD 3 = s.matched ∧
    (s.readReg .status).extractLsb' 4 2 = s.mofs ∧ (s.readReg .status).getLsbD 6 = s.busyErr ∧
    (s.readReg .status).extractLsb' 8 8 = s.errCode ∧ (s.readReg .status).extractLsb' 16 6 = s.rmap ∧
    ((s.readReg .status).getLsbD 22 = true ↔ s.rmap = 0x3F) ∧ (s.readReg .status).extractLsb' 24 4 = s.kind ∧
    (s.readReg .ctrl).getLsbD 0 = false ∧ (s.readReg .ctrl).getLsbD 1 = s.ie ∧
    (s.readReg .ctrl).extractLsb' 4 2 = s.klen ∧
    ∀ v : Word, s.writeReg .status v =
        { s with done := s.done && !v.getLsbD 1, busyErr := s.busyErr && !v.getLsbD 6 } ∧
      (v.getLsbD 0 = false → s.writeReg .ctrl v = { s with ie := v.getLsbD 1, klen := v.extractLsb' 4 2 })

/-- Only VERIFY writes MATCH and MOFS, only the decoders write KIND, only FRAGST and RCLR write RMAP, and every
completion writes ERRCODE, BUSY and DONE (R23, last paragraph; R39). -/
def Obligations.WhoWritesTheStatusFields : Prop :=
  ∀ (i : Instr) (s t : State), exec i s = .next t →
    (isVerify i = false → t.matched = s.matched ∧ t.mofs = s.mofs) ∧
    (isDecoder i = false → t.kind = s.kind) ∧
    (i ≠ .fragst → i ≠ .rclr → t.rmap = s.rmap) ∧
    t.busy = false ∧ t.done = true ∧ t.busyErr = s.busyErr

/-- R114: a command that ends in an error changes no register but STATUS; of STATUS, besides the lifecycle fields, a
VERIFY clears MATCH and MOFS, and a decoder clears KIND. -/
def Obligations.ErrorsCommitNothing : Prop :=
  ∀ (i : Instr) (s t : State), exec i s = .next t → t.errCode ≠ 0 →
    t = { s with errCode := t.errCode, busy := false, done := true,
                 matched := if isVerify i then false else s.matched,
                 mofs := if isVerify i then 0 else s.mofs,
                 kind := if isDecoder i then 0 else s.kind }

/-- Every command completes in every state, with success or with one of the codes R260 lists for it; codes 8 to 255 are
never written (R112, R260). -/
def Obligations.EveryCommandEndsInAListedCode : Prop :=
  ∀ (i : Instr) (s : State), ∃ t c, exec i s = .next t ∧ (c = .ok ∨ c ∈ possibleErrors i) ∧
    t.errCode = errorCodeBits c ∧ t.errCode.toNat ≤ 7 ∧ t.busy = false ∧ t.done = true

/-- A register not listed for a command is never written by it, and what only the host writes (F_SRC, F_CANID, TXID,
TIME, NODECNT, KEY, CTRL) no command writes (10_state.md section 2). The last clause, that PENDING keeps the completed word,
is the model's choice, log entry 1. -/
def Obligations.UnlistedRegistersAreKept : Prop :=
  ∀ (i : Instr) (s t : State), exec i s = .next t →
    (∀ r, r ≠ .status → mayWrite i r = false → t.readReg r = s.readReg r) ∧
    (∀ a, 0x080 ≤ a → a < 0x098 → t.mem.read a = s.mem.read a) ∧
    t.fSrc = s.fSrc ∧ t.fCanid = s.fCanid ∧ t.txid = s.txid ∧ t.time = s.time ∧ t.nodeCnt = s.nodeCnt ∧
    t.ie = s.ie ∧ t.klen = s.klen ∧ t.pending = s.pending

/-- R272: the interrupt line is DONE and IE; every completion, of an illegal word too, raises it when IE is 1; it falls
when the host clears DONE, issues a command, clears IE or resets the block. -/
def Obligations.InterruptFollowsDoneAndEnable : Prop :=
  (∀ s : State, s.irq = (s.done && s.ie)) ∧
  (∀ (i : Instr) (s t : State), exec i s = .next t → t.irq = s.ie) ∧
  (∀ s t : State, completeIllegal s = .next t → t.irq = s.ie) ∧
  (∀ (s : State) (v : Word), v.getLsbD 1 = true → (s.writeReg .status v).irq = false) ∧
  (∀ (s : State) (w : Word), (s.writeReg .cmd w).irq = false) ∧
  (∀ (s : State) (v : Word), v.getLsbD 1 = false → (s.writeReg .ctrl v).irq = false) ∧
  (∀ s : State, s.resetBlock.irq = false)

/-! ## Reset -/

/-- R290 and R292: the reset input and a write of CTRL with SRST = 1 put the whole block into its reset state, whether or
not a command is in flight; the command is abandoned, without completion, error or interrupt. (PENDING's 0 is the model's
choice, log entry 1, and so is what the model's own fields keep over a reset, log entry 12.) -/
def Obligations.EveryResetSourceResetsTheWholeBlock : Prop :=
  ∀ (s : State) (rest : List HostEvent), (s.busy = true → s.latency ≠ 0) →
    (s.inputs = .resetInput :: rest →
      step s = .next { State.reset with inputs := rest, issued := s.issued, draws := s.draws, answer := s.answer }) ∧
    (∀ (a : HostAccess) (v : Word), s.inputs = .access a :: rest → windowOffset a.addr = some 0x004 →
      a.accepted = true → a.op = .write v → v.getLsbD 0 = true →
      step s = .next { State.reset with inputs := rest, issued := s.issued, draws := s.draws, answer := .written })

/-- R291: what every register reads after reset, the key array, the interrupt line, and that no command is in flight. -/
def Obligations.ResetValuesOfEveryRegister : Prop :=
  State.reset.readReg .id = 0x4D430001 ∧ State.reset.readReg .nodeCnt = 0x00000040 ∧
  (∀ r, r ≠ .id → r ≠ .nodeCnt → State.reset.readReg r = 0) ∧
  State.reset.keyArr 24 = zeros 24 ∧ State.reset.busy = false ∧ State.reset.irq = false ∧
  State.reset.ie = false ∧ State.reset.klen = 0

/-! ## The invariant -/

/-- The invariant holds after reset. -/
def Obligations.InvariantHoldsAtReset : Prop := State.reset.Inv

/-- Every step keeps the invariant: the byte-array registers keep their canonical form and their place, NODECNT stays
legal (R25), ERRCODE and KIND stay known codes (R260, R98), DONE is 0 while BUSY is 1 (R118), and MOFS is 0 unless the
last VERIFY matched (R136). -/
def Obligations.EveryStepKeepsTheInvariant : Prop :=
  ∀ s t : State, s.Inv → step s = .next t → t.Inv

/-! ## Crypto commands -/

/-- R116: NOP changes nothing but the lifecycle fields; its word is 0x00000000, and the word 0x00000100 and any word with
a bit of `[31:9]` set end with ILLEGAL. -/
def Obligations.NopOnlyCompletes : Prop :=
  (∀ s : State, exec .nop s = .next { s with errCode := 0, busy := false, done := true }) ∧
  (∀ w : Word, decode w = .ok .nop ↔ w = 0x00000000#32) ∧
  (∀ s : State, s.busy = true → s.latency = 0 → (s.pending = 0x00000100 ∨ s.pending.extractLsb' 9 23 ≠ 0) →
    step s = .next { s with errCode := 1, busy := false, done := true })

/-- R131: `dbl` on 16-byte strings is a left shift of the big-endian value and, when its top bit was 1, an XOR with
0x87. -/
def Obligations.DoublingShiftsAndXors : Prop :=
  ∀ x : List Byte, x.length = 16 →
    (2 ^ 127 ≤ fromBE x → blockBytes (dbl (blockOf x)) = beBytes 16 ((2 * fromBE x) % 2 ^ 128 ^^^ 0x87)) ∧
    (fromBE x < 2 ^ 127 → blockBytes (dbl (blockOf x)) = beBytes 16 (2 * fromBE x))

/-- R133: the steps of CMAC: `n` blocks (1 for the empty message), the last one XORed with K1 when it is complete, padded
with 0x80 and zeros and XORed with K2 when it is not, the others chained in order. -/
def Obligations.CmacFollowsTheRfcSteps : Prop :=
  ∀ (enc : Block → Block) (m : List Byte),
    let k1 := dbl (enc 0)
    let k2 := dbl k1
    let n := if (m.length + 15) / 16 = 0 then 1 else (m.length + 15) / 16
    let mn := slice m (16 * (n - 1)) m.length
    let x := (List.range (n - 1)).foldl (fun x i => enc (x ^^^ blockOf (slice m (16 * i) (16 * i + 16)))) 0
    (m.length ≠ 0 ∧ m.length % 16 = 0 → cmacBytes enc m = blockBytes (enc (x ^^^ (blockOf mn ^^^ k1)))) ∧
    (¬ (m.length ≠ 0 ∧ m.length % 16 = 0) →
      cmacBytes enc m = blockBytes (enc (x ^^^ (blockOf (mn ++ [0x80] ++ zeros (15 - mn.length)) ^^^ k2)))) ∧
    (cmacBytes enc m).length = 16

/-- R139 and R140: key wrap and unwrap are the index-based loops of the rules, over the 8-byte pieces of the string. -/
def Obligations.KeyWrapFollowsTheIndexedLoops : Prop :=
  ∀ (enc dec : Block → Block) (n : Nat) (p c : List Byte), 2 ≤ n → p.length = 8 * n → c.length = 8 * (n + 1) →
    let out := wrapLoop enc n (0xA6A6A6A6A6A6A6A6, piecesFrom p 0 n)
    let back := unwrapLoop dec n (semiOf (slice c 0 8), piecesFrom c 8 n)
    keyWrap enc p = semiBytes out.1 ++ (out.2.map semiBytes).flatten ∧
    (keyWrap enc p).length = 8 * (n + 1) ∧
    keyUnwrap dec c = (decide (back.1 = 0xA6A6A6A6A6A6A6A6), (back.2.map semiBytes).flatten) ∧
    (keyUnwrap dec c).2.length = 8 * n

/-- R134: CMAC under a 128-bit key writes the MAC of `BUF[0..LEN)` to MAC0 to MAC3 and nothing else; KLEN other than 0
ends in KEYLEN, then LEN above 64 in BADLEN. -/
def Obligations.CmacWritesTheMac : Prop :=
  ∀ s : State,
    (s.klen ≠ 0 → endsInError .cmac s 2) ∧
    (s.klen = 0 → 64 < s.len.toNat → endsInError .cmac s 3) ∧
    (s.klen = 0 → s.len.toNat ≤ 64 →
      ∃ t, exec .cmac s = .next t ∧
        t = { s with mem := t.mem, errCode := 0, busy := false, done := true } ∧
        t.macArr = cmacBytes (Config.cipher.enc s.key128) (s.bufBytes s.len.toNat) ∧
        (∀ i : Fin 4, t.readReg (.mac i) = BitVec.ofNat 32 (fromLE (slice
          (cmacBytes (Config.cipher.enc s.key128) (s.bufBytes s.len.toNat)) (4 * i.val) (4 * i.val + 4)))) ∧
        Memory.sameOutside s.mem t.mem 0x0A0 16)

/-- R135: SIGN is CMAC, and TAG takes the first 4 bytes of the MAC, so that TAG = MAC0. -/
def Obligations.SignWritesMacAndTag : Prop :=
  ∀ s : State,
    (s.klen ≠ 0 → endsInError .sign s 2) ∧
    (s.klen = 0 → 64 < s.len.toNat → endsInError .sign s 3) ∧
    (s.klen = 0 → s.len.toNat ≤ 64 →
      ∃ t, exec .sign s = .next t ∧
        t = { s with mem := t.mem, tag := t.tag, errCode := 0, busy := false, done := true } ∧
        t.macArr = cmacBytes (Config.cipher.enc s.key128) (s.bufBytes s.len.toNat) ∧
        t.tagBytes = (cmacBytes (Config.cipher.enc s.key128) (s.bufBytes s.len.toNat)).take 4 ∧
        t.tag = t.readReg (.mac 0) ∧
        Memory.sameOutside s.mem t.mem 0x0A0 16)

/-- R136: VERIFY sets MATCH when the first 4 bytes of the MAC of `BUF[0..LEN)` are TAG; VERIFY.W tries TIME - 1, TIME and
TIME + 1 at TPOS, in this order, and reports the first that matches in MOFS; an error (KEYLEN, BADLEN for LEN above 64,
for VERIFY.W BADLEN for TPOS + 4 above LEN) clears both; no register but STATUS changes. -/
def Obligations.VerifyComparesTheTag : Prop :=
  ∀ s : State,
    let mac := cmacBytes (Config.cipher.enc s.key128)
    let m := s.bufBytes s.len.toNat
    let hit := fun d : Word => decide ((mac (m.take s.tpos.toNat ++ leBytes 4 (s.time + d).toNat ++
      m.drop (s.tpos.toNat + 4))).take 4 = leBytes 4 s.tag.toNat)
    let fails := fun (i : Instr) (code : BitVec 8) =>
      exec i s = .next { s with matched := false, mofs := 0, errCode := code, busy := false, done := true }
    let reports := fun (i : Instr) (b : Bool) (o : BitVec 2) =>
      exec i s = .next { s with matched := b, mofs := o, errCode := 0, busy := false, done := true }
    (s.klen ≠ 0 → fails .verify 2 ∧ fails .verifyW 2) ∧
    (s.klen = 0 → 64 < s.len.toNat → fails .verify 3 ∧ fails .verifyW 3) ∧
    (s.klen = 0 → s.len.toNat ≤ 64 →
      reports .verify (decide ((mac m).take 4 = leBytes 4 s.tag.toNat)) 0 ∧
      (s.len.toNat < s.tpos.toNat + 4 → fails .verifyW 3) ∧
      (s.tpos.toNat + 4 ≤ s.len.toNat →
        reports .verifyW (hit (-1) || hit 0 || hit 1)
          (if hit (-1) then 1 else if hit 0 then 2 else if hit 1 then 3 else 0)))

/-- A signature the block has just made verifies: VERIFY after SIGN sets MATCH (R135, R136). -/
def Obligations.VerifyAcceptsWhatSignMade : Prop :=
  ∀ s : State, s.klen = 0 → s.len.toNat ≤ 64 →
    ∃ t u, exec .sign s = .next t ∧ exec .verify t = .next u ∧
      u.matched = true ∧ u.mofs = 0 ∧ u.errCode = 0 ∧ u.tag = t.tag

/-- A signature made over the same message with a time unit `t'` passes VERIFY.W at TIME when `t'` is TIME - 1, TIME or
TIME + 1 modulo 2^32, and whatever passes has the signature of one of those three times (R137, R297). -/
def Obligations.ReplayWindowIsOneTimeUnit : Prop :=
  ∀ (s t : State), s.klen = 0 → s.len.toNat ≤ 64 → s.tpos.toNat + 4 ≤ s.len.toNat → exec .verifyW s = .next t →
    (t.matched = true ↔
      ∃ t' : Word, (t' - s.time = 0xFFFFFFFF ∨ t' - s.time = 0 ∨ t' - s.time = 1) ∧
        (cmacBytes (Config.cipher.enc s.key128) (withTime (s.bufBytes s.len.toNat) s.tpos.toNat t')).take 4 =
          leBytes 4 s.tag.toNat)

/-- R138: GENSUB writes K1 and K2 of the active key to `BUF[0..32)` and sets LEN to 32; KLEN other than 0 ends in
KEYLEN. -/
def Obligations.GensubWritesTheSubkeys : Prop :=
  ∀ s : State,
    (s.klen ≠ 0 → endsInError .gensub s 2) ∧
    (s.klen = 0 →
      ∃ t, exec .gensub s = .next t ∧
        t = { s with mem := t.mem, len := 32, errCode := 0, busy := false, done := true } ∧
        t.bufBytes 16 = blockBytes (dbl (Config.cipher.enc s.key128 0)) ∧
        t.mem.readBytes 0x110 16 = blockBytes (dbl (dbl (Config.cipher.enc s.key128 0))) ∧
        Memory.sameOutside s.mem t.mem 0x100 32)

/-- R141: WRAP under a 128- or 192-bit key replaces `BUF[0..LEN)` by its wrapped form, 8 bytes longer, and adds 8 to LEN;
KLEN 2 and 3 end in KEYLEN, then a LEN that is not 16, 24, 32, 40, 48 or 56 in BADLEN. -/
def Obligations.WrapReplacesTheKeyData : Prop :=
  ∀ s : State,
    (2 ≤ s.klen.toNat → endsInError .wrap s 2) ∧
    (s.klen.toNat ≤ 1 → ¬ (16 ≤ s.len.toNat ∧ s.len.toNat ≤ 56 ∧ s.len.toNat % 8 = 0) → endsInError .wrap s 3) ∧
    (s.klen.toNat ≤ 1 → 16 ≤ s.len.toNat → s.len.toNat ≤ 56 → s.len.toNat % 8 = 0 →
      ∃ t, exec .wrap s = .next t ∧
        t = { s with mem := t.mem, len := s.len + 8, errCode := 0, busy := false, done := true } ∧
        t.bufBytes (s.len.toNat + 8) =
          keyWrap (Config.cipher.enc (if s.klen = 0 then s.key128 else s.key192)) (s.bufBytes s.len.toNat) ∧
        Memory.sameOutside s.mem t.mem 0x100 (s.len.toNat + 8))

/-- R142: UNWRAP replaces `BUF[0..LEN)` by the data unwrapped from it, 8 bytes shorter, and takes 8 from LEN; KEYLEN,
then BADLEN unless LEN is 24, 32, 40, 48, 56 or 64, then ICV when the integrity value is wrong, with BUF and LEN
unchanged. -/
def Obligations.UnwrapReplacesTheCiphertext : Prop :=
  ∀ s : State,
    let out := keyUnwrap (Config.cipher.dec (if s.klen = 0 then s.key128 else s.key192)) (s.bufBytes s.len.toNat)
    (2 ≤ s.klen.toNat → endsInError .unwrap s 2) ∧
    (s.klen.toNat ≤ 1 → ¬ (24 ≤ s.len.toNat ∧ s.len.toNat ≤ 64 ∧ s.len.toNat % 8 = 0) → endsInError .unwrap s 3) ∧
    (s.klen.toNat ≤ 1 → 24 ≤ s.len.toNat → s.len.toNat ≤ 64 → s.len.toNat % 8 = 0 →
      (out.1 = false → endsInError .unwrap s 7) ∧
      (out.1 = true →
        ∃ t, exec .unwrap s = .next t ∧
          t = { s with mem := t.mem, len := s.len - 8, errCode := 0, busy := false, done := true } ∧
          t.bufBytes (s.len.toNat - 8) = out.2 ∧
          Memory.sameOutside s.mem t.mem 0x100 (s.len.toNat - 8)))

/-- R143: UNWRAPR puts the data unwrapped from `REASM[0..32)` into `BUF[0..24)` and sets LEN to 24, REASM and RMAP
unchanged; KEYLEN, then INCOMPLETE while a fragment is missing, then ICV. LEN is neither read nor checked. -/
def Obligations.UnwraprUnwrapsTheReassembledKey : Prop :=
  ∀ s : State,
    let out := keyUnwrap (Config.cipher.dec (if s.klen = 0 then s.key128 else s.key192)) s.reasmBytes
    (2 ≤ s.klen.toNat → endsInError .unwrapr s 2) ∧
    (s.klen.toNat ≤ 1 → s.rmap ≠ 0x3F → endsInError .unwrapr s 6) ∧
    (s.klen.toNat ≤ 1 → s.rmap = 0x3F →
      (out.1 = false → endsInError .unwrapr s 7) ∧
      (out.1 = true →
        ∃ t, exec .unwrapr s = .next t ∧
          t = { s with mem := t.mem, len := 24, errCode := 0, busy := false, done := true } ∧
          t.bufBytes 24 = out.2 ∧
          Memory.sameOutside s.mem t.mem 0x100 24))

/-- The round-trip property: UNWRAP after WRAP under the same key returns the key data, for every length WRAP takes and
both key lengths, whatever the cipher (R1, R141, R142). -/
def Obligations.UnwrapUndoesWrap : Prop :=
  ∀ s : State, s.klen.toNat ≤ 1 → 16 ≤ s.len.toNat → s.len.toNat ≤ 56 → s.len.toNat % 8 = 0 →
    ∃ t u, exec .wrap s = .next t ∧ t.errCode = 0 ∧ exec .unwrap t = .next u ∧ u.errCode = 0 ∧
      u.len = s.len ∧ u.bufBytes s.len.toNat = s.bufBytes s.len.toNat

/-! ## Frame encoders -/

/-- R171, R172, R174, R175, R176: the crypt-frame encoders (ENCFRAG apart) emit, under TXID, the bytes of their format
when every NodeId they place is below NODECNT, and end in RANGE with nothing written when one is not. -/
def Obligations.CryptFrameEncodersEmitTheirFormat : Prop :=
  ∀ s : State,
    let b0 := fun t : Byte => (t <<< 6) ||| (s.fDst &&& 0x3F)
    let value16 := leBytes 2 (s.fValue.extractLsb' 0 16).toNat
    let dstOk := s.fDst.toNat < s.nodeCnt.toNat
    let fwdOk := s.fFwd.toNat < s.nodeCnt.toNat
    (dstOk ∧ fwdOk →
      emitsFrame .encrq s s.txid [b0 0, s.fFwd] ∧
      emitsFrame .encch s s.txid [b0 1, s.fFwd] ∧
      emitsFrame .encchN s s.txid ([b0 1, s.fFwd] ++ s.nonce)) ∧
    (¬ (dstOk ∧ fwdOk) → endsInError .encrq s 4 ∧ endsInError .encch s 4 ∧ endsInError .encchN s 4) ∧
    (dstOk →
      emitsFrame .encack s s.txid ([b0 2] ++ leBytes 3 s.fMask.toNat ++ leBytes 4 s.tag.toNat) ∧
      emitsFrame .encsig16 s s.txid ([b0 3, s.fSignum] ++ value16 ++ leBytes 4 s.tag.toNat) ∧
      emitsFrame .encareq s s.txid [b0 3, s.fSignum, s.fPresc] ∧
      emitsFrame .encareqM s s.txid ([b0 3, s.fSignum, s.fPresc] ++ leBytes 4 s.tag.toNat)) ∧
    (¬ dstOk →
      endsInError .encack s 4 ∧ endsInError .encsig16 s 4 ∧ endsInError .encareq s 4 ∧ endsInError .encareqM s 4)

/-- R173: ENCFRAG emits fragment F_FRAG.SEQ of the wrapped key in `BUF[0..32)`, 6 bytes of it for SEQ 0 to 4 and 2 for
SEQ 5; BADLEN unless LEN is 32, then RANGE for a NodeId or a SEQ out of range. -/
def Obligations.FragmentEncoderSplitsTheWrappedKey : Prop :=
  ∀ s : State,
    let q := s.fFrag.toNat / 16
    let b0 := ((2 : Byte) <<< 6) ||| (s.fDst &&& 0x3F)
    (s.len ≠ 32 → endsInError .encfrag s 3) ∧
    (s.len = 32 → s.nodeCnt.toNat ≤ s.fDst.toNat → endsInError .encfrag s 4) ∧
    (s.len = 32 → s.fDst.toNat < s.nodeCnt.toNat →
      (5 < q → endsInError .encfrag s 4) ∧
      (q < 5 → emitsFrame .encfrag s s.txid
        ([b0, BitVec.ofNat 8 (q * 16 + 6)] ++ slice (s.bufBytes 32) (6 * q) (6 * q + 6))) ∧
      (q = 5 → emitsFrame .encfrag s s.txid ([b0, 0x52] ++ slice (s.bufBytes 32) 30 32)))

/-- R177, R178, R179: the encoders of frames identified by their CAN identifier emit, under F_CANID, the bytes of their
format in every state. -/
def Obligations.IdentifierFrameEncodersEmitTheirFormat : Prop :=
  ∀ s : State,
    emitsFrame .encsig32 s s.fCanid (leBytes 4 s.fValue.toNat ++ leBytes 4 s.tag.toNat) ∧
    emitsFrame .encplain s s.fCanid (leBytes 4 s.fValue.toNat) ∧
    emitsFrame .enctime s s.fCanid (leBytes 4 s.fTime.toNat) ∧
    emitsFrame .enctimeM s s.fCanid (leBytes 4 s.fTime.toNat ++ leBytes 4 s.tag.toNat)

/-! ## Frame decoders and reassembly -/

/-- R205: DECCRYPT and DECCRYPT.K recognise exactly the crypt-frame formats and write the fields R204 lists for the one
they find; a frame of no format ends in MALFORMED. With F = 1 a type-2 frame is a fragment, with F = 0 an ACK. -/
def Obligations.DeccryptRecognisesTheFormats : Prop :=
  ∀ (s : State) (k : Bool),
    let i := if k then Instr.deccryptK else Instr.deccrypt
    let d : Byte := BitVec.ofNat 8 ((s.fb 0).toNat % 64)
    let word := fun a : Nat => BitVec.ofNat 32 (fromLE (s.fbBytes a 4))
    (s.frameFits k .reqchal → decodesTo i s 1 { s with fType := 0, fDst := d, fFwd := s.fb 1 }) ∧
    (s.frameFits k .chal → decodesTo i s 2 { s with fType := 1, fDst := d, fFwd := s.fb 1 }) ∧
    (s.frameFits k .chalNonce → decodesTo i s 3 { s with
      fType := 1, fDst := d, fFwd := s.fb 1, fNonce0 := word 2,
      fNonce1 := BitVec.ofNat 16 (fromLE (s.fbBytes 6 2)) }) ∧
    (s.frameFits k .frag → decodesTo i s 4 { s with fType := 2, fDst := d, fFrag := s.fb 1 }) ∧
    (s.frameFits k .ack → decodesTo i s 5 { s with
      fType := 2, fDst := d, fMask := BitVec.ofNat 24 (fromLE (s.fbBytes 1 3)), tag := word 4 }) ∧
    (s.frameFits k .sig16 → decodesTo i s 6 { s with
      fType := 3, fDst := d, fSignum := s.fb 1, fValue := BitVec.ofNat 32 (fromLE (s.fbBytes 2 2)), tag := word 4 }) ∧
    (s.frameFits k .areq → decodesTo i s 7 { s with
      fType := 3, fDst := d, fSignum := s.fb 1, fPresc := s.fb 2 }) ∧
    (s.frameFits k .areqMac → decodesTo i s 8 { s with
      fType := 3, fDst := d, fSignum := s.fb 1, fPresc := s.fb 2, tag := word 3 }) ∧
    ((∀ f, ¬ s.frameFits k f) → endsMalformed i s)

/-- R206, R207, R208: the decoders of frames identified by their CAN identifier take exactly their lengths, write the
value, the time and the MAC of the frame, and end in MALFORMED for any other length. -/
def Obligations.IdentifierFrameDecodersTakeTheirLengths : Prop :=
  ∀ s : State,
    let word := fun a : Nat => BitVec.ofNat 32 (fromLE (s.fbBytes a 4))
    (s.frameDlc = 8 → decodesTo .decsig32 s 9 { s with fValue := word 0, tag := word 4 }) ∧
    (s.frameDlc ≠ 8 → endsMalformed .decsig32 s) ∧
    (s.frameDlc = 4 → decodesTo .decplain s 10 { s with fValue := word 0 }) ∧
    (s.frameDlc ≠ 4 → endsMalformed .decplain s) ∧
    (s.frameDlc = 4 → decodesTo .dectime s 11 { s with fTime := word 0 }) ∧
    (s.frameDlc = 8 → decodesTo .dectime s 12 { s with fTime := word 0, tag := word 4 }) ∧
    (s.frameDlc ≠ 4 → s.frameDlc ≠ 8 → endsMalformed .dectime s)

/-- R209: FRAGST stores the data of a well-formed fragment in its range of REASM, sets its bit of RMAP, and writes F_TYPE,
F_DST, F_FRAG and KIND; any other frame ends in MALFORMED. -/
def Obligations.FragstStoresTheFragment : Prop :=
  ∀ s : State,
    let q := (s.fb 1).toNat / 16
    let flen := (s.fb 1).toNat % 16
    (s.frameFits true .frag →
      ∃ t, exec .fragst s = .next t ∧
        t = { s with fType := 2, fDst := BitVec.ofNat 8 ((s.fb 0).toNat % 64), fFrag := s.fb 1, mem := t.mem,
                     rmap := s.rmap ||| (1#6 <<< q), kind := 4, errCode := 0, busy := false, done := true } ∧
        t.mem.readBytes (0x140 + 6 * q) flen = s.fbBytes 2 flen ∧
        Memory.sameOutside s.mem t.mem (0x140 + 6 * q) flen) ∧
    (¬ s.frameFits true .frag → endsMalformed .fragst s)

/-- R210: RCLR clears REASM and RMAP, and changes nothing else but the lifecycle fields; KIND is unchanged. -/
def Obligations.RclrClearsTheReassembly : Prop :=
  ∀ s : State,
    ∃ t, exec .rclr s = .next t ∧
      t = { s with mem := t.mem, rmap := 0, errCode := 0, busy := false, done := true } ∧
      t.reasmBytes = zeros 32 ∧
      Memory.sameOutside s.mem t.mem 0x140 32

/-- A frame an encoder made is decoded back to the fields it was made from, in another block with the same NODECNT that
holds the frame's length and bytes (R87 to R97, R204). -/
def Obligations.DecodersReadBackEncodedFrames : Prop :=
  ∀ s t r : State, s.Inv → r.nodeCnt = s.nodeCnt → r.frameDlc = t.frameDlc → r.fbBytes 0 8 = t.fbBytes 0 8 →
    t.errCode = 0 →
    (exec .encrq s = .next t →
      ∃ u, exec .deccrypt r = .next u ∧ u.kind = 1 ∧ u.fType = 0 ∧ u.fDst = s.fDst ∧ u.fFwd = s.fFwd) ∧
    (exec .encch s = .next t →
      ∃ u, exec .deccrypt r = .next u ∧ u.kind = 2 ∧ u.fType = 1 ∧ u.fDst = s.fDst ∧ u.fFwd = s.fFwd) ∧
    (exec .encchN s = .next t →
      ∃ u, exec .deccrypt r = .next u ∧ u.kind = 3 ∧ u.fType = 1 ∧ u.fDst = s.fDst ∧ u.fFwd = s.fFwd ∧
        u.nonce = s.nonce) ∧
    (exec .encack s = .next t →
      ∃ u, exec .deccrypt r = .next u ∧ u.kind = 5 ∧ u.fType = 2 ∧ u.fDst = s.fDst ∧ u.fMask = s.fMask ∧
        u.tag = s.tag) ∧
    (exec .encsig16 s = .next t →
      ∃ u, exec .deccrypt r = .next u ∧ u.kind = 6 ∧ u.fType = 3 ∧ u.fDst = s.fDst ∧ u.fSignum = s.fSignum ∧
        u.fValue = (s.fValue.extractLsb' 0 16).setWidth 32 ∧ u.tag = s.tag) ∧
    (exec .encareq s = .next t →
      ∃ u, exec .deccrypt r = .next u ∧ u.kind = 7 ∧ u.fType = 3 ∧ u.fDst = s.fDst ∧ u.fSignum = s.fSignum ∧
        u.fPresc = s.fPresc) ∧
    (exec .encareqM s = .next t →
      ∃ u, exec .deccrypt r = .next u ∧ u.kind = 8 ∧ u.fType = 3 ∧ u.fDst = s.fDst ∧ u.fSignum = s.fSignum ∧
        u.fPresc = s.fPresc ∧ u.tag = s.tag) ∧
    (exec .encsig32 s = .next t →
      ∃ u, exec .decsig32 r = .next u ∧ u.kind = 9 ∧ u.fValue = s.fValue ∧ u.tag = s.tag) ∧
    (exec .encplain s = .next t → ∃ u, exec .decplain r = .next u ∧ u.kind = 10 ∧ u.fValue = s.fValue) ∧
    (exec .enctime s = .next t → ∃ u, exec .dectime r = .next u ∧ u.kind = 11 ∧ u.fTime = s.fTime) ∧
    (exec .enctimeM s = .next t →
      ∃ u, exec .dectime r = .next u ∧ u.kind = 12 ∧ u.fTime = s.fTime ∧ u.tag = s.tag)

/-- Delivering the six fragments of a wrapped key in any order leaves the same reassembled key and a full map
(43_frame_decode.md R209, 30_encoding.md R99, 95_test_vectors.md S4). -/
def Obligations.FragmentOrderDoesNotMatter : Prop :=
  ∀ (w : List Byte) (dst : BitVec 6) (order : List Nat) (s : State),
    w.length = 32 → dst.toNat < s.nodeCnt.toNat → order.Perm [0, 1, 2, 3, 4, 5] →
    ∃ t, collectFragments w dst order s = .next t ∧ t.reasmBytes = w ∧ t.rmap = 0x3F ∧ t.kind = 4 ∧
      t.errCode = 0 ∧ (∀ a, 0x100 ≤ a → a < 0x140 → t.mem.read a = s.mem.read a) ∧ t.keyArr 24 = s.keyArr 24

/-- The delivery of a session key, end to end: a 24-byte plaintext wrapped by one block, its six fragments delivered to
another that holds the same key, in any order, is what UNWRAPR recovers there (41_crypto.md R141 and R143, R99,
95_test_vectors.md P3). The fragments delivered are the frames ENCFRAG makes in the wrapping block, for each SEQ and the
addressed node (R173). With KLEN = 0 only the 16 bytes of the key in use need agree (R33). -/
def Obligations.DeliveredKeyIsRecovered : Prop :=
  ∀ (s t r : State) (dst : BitVec 6) (order : List Nat),
    s.klen.toNat ≤ 1 → s.len = 24 → exec .wrap s = .next t →
    r.klen = s.klen → r.keyArr (if s.klen = 0 then 16 else 24) = s.keyArr (if s.klen = 0 then 16 else 24) →
    dst.toNat < r.nodeCnt.toNat → order.Perm [0, 1, 2, 3, 4, 5] →
    (∀ q, q < 6 → dst.toNat < t.nodeCnt.toNat →
      let payload := fragmentOf (t.bufBytes 32) dst q
      ∃ f, exec .encfrag { t with fDst := dst.setWidth 8, fFrag := BitVec.ofNat 8 (16 * q) } = .next f ∧
        f.errCode = 0 ∧ f.frameDlc.toNat = payload.length ∧ f.fbBytes 0 8 = payload ++ zeros (8 - payload.length)) ∧
    ∃ u v, collectFragments (t.bufBytes 32) dst order r = .next u ∧ exec .unwrapr u = .next v ∧
      v.errCode = 0 ∧ v.len = 24 ∧ v.bufBytes 24 = s.bufBytes 24

/-! ## Plaintext builders -/

/-- R241, R243, R244: the builders of a plaintext between two nodes put the time, the two NodeIds and their data at the
start of BUF, set LEN to its length and TPOS to 0, and end in RANGE when a NodeId is not below NODECNT. -/
def Obligations.NodePlaintextBuildersBindTheirFields : Prop :=
  ∀ s : State,
    let head := leBytes 4 s.time.toNat ++ [s.fSrc, s.fDst]
    let ok := s.fSrc.toNat < s.nodeCnt.toNat ∧ s.fDst.toNat < s.nodeCnt.toNat
    (ok →
      buildsPlaintext .ptsig16 s (head ++ leBytes 2 (s.fValue.extractLsb' 0 16).toNat) ∧
      buildsPlaintext .ptack s (head ++ leBytes 3 s.fMask.toNat) ∧
      buildsPlaintext .ptareq s (head ++ [s.fSignum, s.fPresc])) ∧
    (¬ ok → endsInError .ptsig16 s 4 ∧ endsInError .ptack s 4 ∧ endsInError .ptareq s 4)

/-- R242, R245: PTSIG32 and PTTIME put their plaintext at the start of BUF in every state; the identifier is bound without
its EXT bit, and PTTIME binds F_TIME, not TIME. -/
def Obligations.IdentifierPlaintextBuildersBindTheirFields : Prop :=
  ∀ s : State,
    buildsPlaintext .ptsig32 s (leBytes 4 s.time.toNat ++ leBytes 4 s.fCanid.ident.toNat ++ leBytes 4 s.fValue.toNat) ∧
    buildsPlaintext .pttime s (leBytes 4 s.fTime.toNat ++ s.nonce ++ leBytes 4 s.fCanid.ident.toNat)

/-- R246: PTSKEY puts the requester, the peer and the nonce at `BUF[16..24)` and sets LEN to 24; the session key in
`BUF[0..16)` and TPOS are unchanged; RANGE when a NodeId is not below NODECNT. -/
def Obligations.PtskeyCompletesTheWrapPlaintext : Prop :=
  ∀ s : State,
    let ok := s.fDst.toNat < s.nodeCnt.toNat ∧ s.fFwd.toNat < s.nodeCnt.toNat
    (ok →
      ∃ t, exec .ptskey s = .next t ∧
        t = { s with mem := t.mem, len := 24, errCode := 0, busy := false, done := true } ∧
        t.mem.readBytes 0x110 8 = [s.fDst, s.fFwd] ++ s.nonce ∧
        Memory.sameOutside s.mem t.mem 0x110 8) ∧
    (¬ ok → endsInError .ptskey s 4)
end

