-- ==== Sys2Proof/Laws/Bus.lean ====
section
/-! SUPPORT. What a host access can do, said once: the register map, the accesses of the window, and the events from
outside. -/

namespace Sys2Proof.Machine

/-- Every register is found at its own offset. -/
theorem regAt_regOffset (r : Reg) : regAt (regOffset r) = some r := by
  cases r <;> first | rfl | (rename_i i; fin_cases i <;> rfl)

/-- What is found at an offset has that offset. -/
theorem regOffset_of_regAt {off : Nat} {r : Reg} (h : regAt off = some r) : regOffset r = off := by
  have := List.find?_some h
  simpa using this

/-- No two registers share an offset. -/
theorem regOffset_injective {r r' : Reg} (h : regOffset r = regOffset r') : r = r' := by
  have := regAt_regOffset r
  rw [h, regAt_regOffset r'] at this
  exact (Option.some.inj this).symm

/-- The address of a window offset, and nothing else, decodes to it (R2). -/
theorem windowOffset_base (off : Nat) (h : off < 0x200) : windowOffset (Config.base + off) = some off := by
  unfold windowOffset Config.base
  rw [if_pos (by omega)]
  congr 1
  omega

/-- Every register lies in the window. -/
theorem regOffset_lt (r : Reg) : regOffset r < 0x200 := by
  cases r <;> simp [regOffset, keyBase, macBase, frameBase, bufBase, reasmBase] <;> omega

/-- Every register lies at a multiple of 4. -/
theorem regOffset_aligned (r : Reg) : regOffset r % 4 = 0 := by
  cases r <;> simp [regOffset, keyBase, macBase, frameBase, bufBase, reasmBase]

/-- A register's address decodes to its offset. -/
theorem windowOffset_reg (r : Reg) : windowOffset (Config.base + regOffset r) = some (regOffset r) :=
  windowOffset_base _ (regOffset_lt r)

/-- BASE is a multiple of 4, being one of 0x200 (R2). -/
theorem base_aligned : Config.base % 4 = 0 := by unfold Config.base; omega

/-- A 32-bit access of a register is one the window accepts (R65). -/
theorem accepted_reg (r : Reg) (op : BusOp) :
    ({ addr := Config.base + regOffset r, width := .word, op := op } : HostAccess).accepted = true := by
  have h1 := base_aligned
  have h2 := regOffset_aligned r
  simp only [HostAccess.accepted, beq_self_eq_true, Bool.true_and, beq_iff_eq]
  omega

/-- All a read can do: answer, and count a draw where the answer is a free value (R61, R117). -/
theorem busRead_cases (s : State) (off : Nat) :
    ((s.busy = false ∨ exactWhileBusy off = true) ∧ s.busRead off = { s with answer := .data (s.readIdle off) }) ∨
      ((s.busy = true ∧ exactWhileBusy off = false) ∧
        s.busRead off = { s with answer := .data (Config.busyRead s.draws), draws := s.draws + 1 }) := by
  unfold State.busRead
  cases hb : s.busy <;> cases he : exactWhileBusy off <;> simp

/-- All a write can do while a command is in flight (R118). -/
theorem writeBusy_cases (s : State) (off : Nat) (v : Word) :
    (off = regOffset .status ∧ s.writeBusy off v = s.writeStatus v) ∨
      ((off = regOffset .ctrl ∧ v.getLsbD 0 = true) ∧ s.writeBusy off v = s.resetBlock) ∨
        ((off ≠ regOffset .status ∧ ¬ (off = regOffset .ctrl ∧ v.getLsbD 0 = true)) ∧
          s.writeBusy off v = { s with busyErr := true }) := by
  unfold State.writeBusy
  by_cases h1 : off = regOffset .status
  · exact .inl ⟨h1, by rw [if_pos h1]⟩
  · by_cases h2 : off = regOffset .ctrl ∧ v.getLsbD 0 = true
    · exact .inr (.inl ⟨h2, by rw [if_neg h1, if_pos h2]⟩)
    · exact .inr (.inr ⟨⟨h1, h2⟩, by rw [if_neg h1, if_neg h2]⟩)

/-- All an access of the window can do (R65): a bus error, a read or a write. -/
theorem windowAccess_cases (s : State) (a : HostAccess) (off : Nat) :
    (a.accepted = false ∧ s.windowAccess a off = { s with answer := .busError }) ∨
      (a.accepted = true ∧ a.op = .read ∧ s.windowAccess a off = s.busRead off) ∨
        (∃ v, a.accepted = true ∧ a.op = .write v ∧ s.windowAccess a off = s.busWrite off v) := by
  unfold State.windowAccess
  cases h : a.accepted
  · exact .inl ⟨rfl, by simp⟩
  · cases ho : a.op with
    | read => exact .inr (.inl ⟨rfl, rfl, by simp⟩)
    | write v => exact .inr (.inr ⟨v, rfl, rfl, by simp⟩)

/-- Bit 0 of STATUS is BUSY (R23). -/
theorem readReg_status_busy (s : State) : (s.readReg .status).getLsbD 0 = s.busy := by
  have append : ∀ (x : BitVec 31) (b : Bool), (x ++ BitVec.ofBool b).getLsbD 0 = b := by
    intro x b
    rw [BitVec.getLsbD_append]
    cases b <;> rfl
  exact append _ s.busy

/-- All a round of `wait` can do: read STATUS, and stay where the read shows BUSY = 1 (R86). -/
theorem State.waitRound_eq (s : State) :
    s.waitRound = { s with answer := .data (s.readReg .status)
                           inputs := if s.busy then .wait :: s.inputs else s.inputs } := by
  have h1 : s.busRead (regOffset .status) = { s with answer := .data (s.readReg .status) } := by
    rcases busRead_cases s (regOffset .status) with ⟨-, h⟩ | ⟨⟨-, h⟩, -⟩
    · rw [h, State.readIdle, regAt_regOffset]
    · exact absurd h (by decide)
  simp only [State.waitRound, h1, busyBit, readReg_status_busy]
  cases s.busy <;> rfl

/-- All an event from outside can do: an access of the window, a fault outside it, a reset, or a round of `wait`. -/
theorem hostStep_cases {s t : State} {e : HostEvent} (h : hostStep s e = .next t) :
    (∃ a off, e = .access a ∧ windowOffset a.addr = some off ∧ t = s.windowAccess a off) ∨
      (e = .resetInput ∧ t = s.resetBlock) ∨ (e = .wait ∧ t = s.waitRound) := by
  cases e with
  | resetInput => exact .inr (.inl ⟨rfl, by simpa [hostStep] using h.symm⟩)
  | wait => exact .inr (.inr ⟨rfl, by simpa [hostStep] using h.symm⟩)
  | access a =>
    cases ho : windowOffset a.addr with
    | none => simp [hostStep, ho] at h
    | some off => exact .inl ⟨a, off, rfl, ho, by simpa [hostStep, ho] using h.symm⟩

/-- What a reset of the block leaves: the reset state, and the model's own fields that are not the block's (R291). -/
theorem State.resetBlock_eq (s : State) :
    s.resetBlock = { State.reset with inputs := s.inputs, issued := s.issued, draws := s.draws, answer := s.answer } :=
  rfl

end Sys2Proof.Machine
end

