-- ==== Sys2Proof/Laws/Bytes.lean ====
section
/-! SUPPORT. The conversions between integers and byte strings are inverse to each other (R4). -/

namespace Sys2Proof.Machine

@[simp] theorem leBytes_length (n v : Nat) : (leBytes n v).length = n := by
  induction n generalizing v with
  | zero => rfl
  | succ n ih => simp [leBytes, ih]

@[simp] theorem beBytes_length (n v : Nat) : (beBytes n v).length = n := by simp [beBytes]

@[simp] theorem zeros_length (n : Nat) : (zeros n).length = n := by simp [zeros]

theorem fromLE_leBytes (n v : Nat) : fromLE (leBytes n v) = v % 256 ^ n := by
  induction n generalizing v with
  | zero => simp [leBytes, fromLE, Nat.mod_one]
  | succ n ih =>
    simp only [leBytes, fromLE, ih, BitVec.toNat_ofNat]
    rw [show 256 ^ (n + 1) = 256 * 256 ^ n from Nat.pow_succ', Nat.mod_mul]

theorem leBytes_fromLE (bs : List Byte) : leBytes bs.length (fromLE bs) = bs := by
  induction bs with
  | nil => rfl
  | cons b bs ih =>
    have hb := b.isLt
    have h1 : (b.toNat + 256 * fromLE bs) / 256 = fromLE bs := by omega
    simp only [List.length_cons, leBytes, fromLE, h1, ih, List.cons.injEq, and_true]
    apply BitVec.eq_of_toNat_eq
    simp only [BitVec.toNat_ofNat]
    omega

theorem fromLE_lt (bs : List Byte) : fromLE bs < 256 ^ bs.length := by
  induction bs with
  | nil => simp [fromLE]
  | cons b bs ih =>
    have hb := b.isLt
    simp only [fromLE, List.length_cons, pow_succ]
    omega

theorem fromBE_beBytes (n v : Nat) : fromBE (beBytes n v) = v % 256 ^ n := by
  simp [fromBE, beBytes, fromLE_leBytes]

theorem beBytes_fromBE (bs : List Byte) : beBytes bs.length (fromBE bs) = bs := by
  have := leBytes_fromLE bs.reverse
  simp only [List.length_reverse] at this
  simp [beBytes, fromBE, this]

theorem fromBE_lt (bs : List Byte) : fromBE bs < 256 ^ bs.length := by
  simpa [fromBE] using fromLE_lt bs.reverse

/-- Byte `i` of `LE_n(v)` is `v[8i+7:8i]` (R4). -/
theorem leBytes_getD (n v i : Nat) (h : i < n) : (leBytes n v).getD i 0 = BitVec.ofNat 8 (v / 256 ^ i) := by
  induction n generalizing v i with
  | zero => omega
  | succ n ih =>
    cases i with
    | zero => simp [leBytes]
    | succ i =>
      have := ih (v / 256) i (by omega)
      simpa [leBytes, Nat.div_div_eq_div_mul, pow_succ, Nat.mul_comm] using this

/-- A 32-bit word survives `LE_4` and `fromLE`. -/
@[simp] theorem ofNat_fromLE_leBytes (v : BitVec 32) : BitVec.ofNat 32 (fromLE (leBytes 4 v.toNat)) = v := by
  rw [fromLE_leBytes]
  apply BitVec.eq_of_toNat_eq
  have := v.isLt
  simp only [BitVec.toNat_ofNat]
  omega

/-- Four bytes survive `fromLE` and `LE_4`. -/
theorem leBytes_ofNat_fromLE (bs : List Byte) (h : bs.length = 4) :
    leBytes 4 (BitVec.ofNat 32 (fromLE bs)).toNat = bs := by
  have h1 := fromLE_lt bs
  rw [h] at h1
  have h2 := leBytes_fromLE bs
  rw [h] at h2
  rw [BitVec.toNat_ofNat, Nat.mod_eq_of_lt (by simpa using h1), h2]

end Sys2Proof.Machine
end

