-- ==== Sys2Proof/Laws/State.lean ====
section
/-! SUPPORT. What each named update of the state makes of each field, one lemma a field, so that no later proof unfolds
a record update. -/

namespace Sys2Proof.Machine

variable (s : State)

/-! ## `retire`: the lifecycle fields of a completion (R112) -/

@[simp] theorem State.retire_ie (c : ErrorCode) : (s.retire c).ie = s.ie := rfl
@[simp] theorem State.retire_klen (c : ErrorCode) : (s.retire c).klen = s.klen := rfl
@[simp] theorem State.retire_busy (c : ErrorCode) : (s.retire c).busy = false := rfl
@[simp] theorem State.retire_done (c : ErrorCode) : (s.retire c).done = true := rfl
@[simp] theorem State.retire_matched (c : ErrorCode) : (s.retire c).matched = s.matched := rfl
@[simp] theorem State.retire_mofs (c : ErrorCode) : (s.retire c).mofs = s.mofs := rfl
@[simp] theorem State.retire_busyErr (c : ErrorCode) : (s.retire c).busyErr = s.busyErr := rfl
@[simp] theorem State.retire_errCode (c : ErrorCode) : (s.retire c).errCode = errorCodeBits c := rfl
@[simp] theorem State.retire_rmap (c : ErrorCode) : (s.retire c).rmap = s.rmap := rfl
@[simp] theorem State.retire_kind (c : ErrorCode) : (s.retire c).kind = s.kind := rfl
@[simp] theorem State.retire_pending (c : ErrorCode) : (s.retire c).pending = s.pending := rfl
@[simp] theorem State.retire_nodeCnt (c : ErrorCode) : (s.retire c).nodeCnt = s.nodeCnt := rfl
@[simp] theorem State.retire_txid (c : ErrorCode) : (s.retire c).txid = s.txid := rfl
@[simp] theorem State.retire_time (c : ErrorCode) : (s.retire c).time = s.time := rfl
@[simp] theorem State.retire_len (c : ErrorCode) : (s.retire c).len = s.len := rfl
@[simp] theorem State.retire_tpos (c : ErrorCode) : (s.retire c).tpos = s.tpos := rfl
@[simp] theorem State.retire_fType (c : ErrorCode) : (s.retire c).fType = s.fType := rfl
@[simp] theorem State.retire_fDst (c : ErrorCode) : (s.retire c).fDst = s.fDst := rfl
@[simp] theorem State.retire_fSrc (c : ErrorCode) : (s.retire c).fSrc = s.fSrc := rfl
@[simp] theorem State.retire_fFwd (c : ErrorCode) : (s.retire c).fFwd = s.fFwd := rfl
@[simp] theorem State.retire_fFrag (c : ErrorCode) : (s.retire c).fFrag = s.fFrag := rfl
@[simp] theorem State.retire_fSignum (c : ErrorCode) : (s.retire c).fSignum = s.fSignum := rfl
@[simp] theorem State.retire_fPresc (c : ErrorCode) : (s.retire c).fPresc = s.fPresc := rfl
@[simp] theorem State.retire_fValue (c : ErrorCode) : (s.retire c).fValue = s.fValue := rfl
@[simp] theorem State.retire_fMask (c : ErrorCode) : (s.retire c).fMask = s.fMask := rfl
@[simp] theorem State.retire_fTime (c : ErrorCode) : (s.retire c).fTime = s.fTime := rfl
@[simp] theorem State.retire_fCanid (c : ErrorCode) : (s.retire c).fCanid = s.fCanid := rfl
@[simp] theorem State.retire_fNonce0 (c : ErrorCode) : (s.retire c).fNonce0 = s.fNonce0 := rfl
@[simp] theorem State.retire_fNonce1 (c : ErrorCode) : (s.retire c).fNonce1 = s.fNonce1 := rfl
@[simp] theorem State.retire_tag (c : ErrorCode) : (s.retire c).tag = s.tag := rfl
@[simp] theorem State.retire_frameId (c : ErrorCode) : (s.retire c).frameId = s.frameId := rfl
@[simp] theorem State.retire_frameDlc (c : ErrorCode) : (s.retire c).frameDlc = s.frameDlc := rfl
@[simp] theorem State.retire_mem (c : ErrorCode) : (s.retire c).mem = s.mem := rfl
@[simp] theorem State.retire_inputs (c : ErrorCode) : (s.retire c).inputs = s.inputs := rfl
@[simp] theorem State.retire_latency (c : ErrorCode) : (s.retire c).latency = s.latency := rfl
@[simp] theorem State.retire_issued (c : ErrorCode) : (s.retire c).issued = s.issued := rfl
@[simp] theorem State.retire_draws (c : ErrorCode) : (s.retire c).draws = s.draws := rfl
@[simp] theorem State.retire_answer (c : ErrorCode) : (s.retire c).answer = s.answer := rfl

/-! ## `clearMatch`: what a failed VERIFY clears (R114) -/

@[simp] theorem State.clearMatch_ie : (s.clearMatch).ie = s.ie := rfl
@[simp] theorem State.clearMatch_klen : (s.clearMatch).klen = s.klen := rfl
@[simp] theorem State.clearMatch_busy : (s.clearMatch).busy = s.busy := rfl
@[simp] theorem State.clearMatch_done : (s.clearMatch).done = s.done := rfl
@[simp] theorem State.clearMatch_matched : (s.clearMatch).matched = false := rfl
@[simp] theorem State.clearMatch_mofs : (s.clearMatch).mofs = 0 := rfl
@[simp] theorem State.clearMatch_busyErr : (s.clearMatch).busyErr = s.busyErr := rfl
@[simp] theorem State.clearMatch_errCode : (s.clearMatch).errCode = s.errCode := rfl
@[simp] theorem State.clearMatch_rmap : (s.clearMatch).rmap = s.rmap := rfl
@[simp] theorem State.clearMatch_kind : (s.clearMatch).kind = s.kind := rfl
@[simp] theorem State.clearMatch_pending : (s.clearMatch).pending = s.pending := rfl
@[simp] theorem State.clearMatch_nodeCnt : (s.clearMatch).nodeCnt = s.nodeCnt := rfl
@[simp] theorem State.clearMatch_txid : (s.clearMatch).txid = s.txid := rfl
@[simp] theorem State.clearMatch_time : (s.clearMatch).time = s.time := rfl
@[simp] theorem State.clearMatch_len : (s.clearMatch).len = s.len := rfl
@[simp] theorem State.clearMatch_tpos : (s.clearMatch).tpos = s.tpos := rfl
@[simp] theorem State.clearMatch_fType : (s.clearMatch).fType = s.fType := rfl
@[simp] theorem State.clearMatch_fDst : (s.clearMatch).fDst = s.fDst := rfl
@[simp] theorem State.clearMatch_fSrc : (s.clearMatch).fSrc = s.fSrc := rfl
@[simp] theorem State.clearMatch_fFwd : (s.clearMatch).fFwd = s.fFwd := rfl
@[simp] theorem State.clearMatch_fFrag : (s.clearMatch).fFrag = s.fFrag := rfl
@[simp] theorem State.clearMatch_fSignum : (s.clearMatch).fSignum = s.fSignum := rfl
@[simp] theorem State.clearMatch_fPresc : (s.clearMatch).fPresc = s.fPresc := rfl
@[simp] theorem State.clearMatch_fValue : (s.clearMatch).fValue = s.fValue := rfl
@[simp] theorem State.clearMatch_fMask : (s.clearMatch).fMask = s.fMask := rfl
@[simp] theorem State.clearMatch_fTime : (s.clearMatch).fTime = s.fTime := rfl
@[simp] theorem State.clearMatch_fCanid : (s.clearMatch).fCanid = s.fCanid := rfl
@[simp] theorem State.clearMatch_fNonce0 : (s.clearMatch).fNonce0 = s.fNonce0 := rfl
@[simp] theorem State.clearMatch_fNonce1 : (s.clearMatch).fNonce1 = s.fNonce1 := rfl
@[simp] theorem State.clearMatch_tag : (s.clearMatch).tag = s.tag := rfl
@[simp] theorem State.clearMatch_frameId : (s.clearMatch).frameId = s.frameId := rfl
@[simp] theorem State.clearMatch_frameDlc : (s.clearMatch).frameDlc = s.frameDlc := rfl
@[simp] theorem State.clearMatch_mem : (s.clearMatch).mem = s.mem := rfl
@[simp] theorem State.clearMatch_inputs : (s.clearMatch).inputs = s.inputs := rfl
@[simp] theorem State.clearMatch_latency : (s.clearMatch).latency = s.latency := rfl
@[simp] theorem State.clearMatch_issued : (s.clearMatch).issued = s.issued := rfl
@[simp] theorem State.clearMatch_draws : (s.clearMatch).draws = s.draws := rfl
@[simp] theorem State.clearMatch_answer : (s.clearMatch).answer = s.answer := rfl

/-! ## `clearKind`: what a failed decoder clears (R114) -/

@[simp] theorem State.clearKind_ie : (s.clearKind).ie = s.ie := rfl
@[simp] theorem State.clearKind_klen : (s.clearKind).klen = s.klen := rfl
@[simp] theorem State.clearKind_busy : (s.clearKind).busy = s.busy := rfl
@[simp] theorem State.clearKind_done : (s.clearKind).done = s.done := rfl
@[simp] theorem State.clearKind_matched : (s.clearKind).matched = s.matched := rfl
@[simp] theorem State.clearKind_mofs : (s.clearKind).mofs = s.mofs := rfl
@[simp] theorem State.clearKind_busyErr : (s.clearKind).busyErr = s.busyErr := rfl
@[simp] theorem State.clearKind_errCode : (s.clearKind).errCode = s.errCode := rfl
@[simp] theorem State.clearKind_rmap : (s.clearKind).rmap = s.rmap := rfl
@[simp] theorem State.clearKind_kind : (s.clearKind).kind = 0 := rfl
@[simp] theorem State.clearKind_pending : (s.clearKind).pending = s.pending := rfl
@[simp] theorem State.clearKind_nodeCnt : (s.clearKind).nodeCnt = s.nodeCnt := rfl
@[simp] theorem State.clearKind_txid : (s.clearKind).txid = s.txid := rfl
@[simp] theorem State.clearKind_time : (s.clearKind).time = s.time := rfl
@[simp] theorem State.clearKind_len : (s.clearKind).len = s.len := rfl
@[simp] theorem State.clearKind_tpos : (s.clearKind).tpos = s.tpos := rfl
@[simp] theorem State.clearKind_fType : (s.clearKind).fType = s.fType := rfl
@[simp] theorem State.clearKind_fDst : (s.clearKind).fDst = s.fDst := rfl
@[simp] theorem State.clearKind_fSrc : (s.clearKind).fSrc = s.fSrc := rfl
@[simp] theorem State.clearKind_fFwd : (s.clearKind).fFwd = s.fFwd := rfl
@[simp] theorem State.clearKind_fFrag : (s.clearKind).fFrag = s.fFrag := rfl
@[simp] theorem State.clearKind_fSignum : (s.clearKind).fSignum = s.fSignum := rfl
@[simp] theorem State.clearKind_fPresc : (s.clearKind).fPresc = s.fPresc := rfl
@[simp] theorem State.clearKind_fValue : (s.clearKind).fValue = s.fValue := rfl
@[simp] theorem State.clearKind_fMask : (s.clearKind).fMask = s.fMask := rfl
@[simp] theorem State.clearKind_fTime : (s.clearKind).fTime = s.fTime := rfl
@[simp] theorem State.clearKind_fCanid : (s.clearKind).fCanid = s.fCanid := rfl
@[simp] theorem State.clearKind_fNonce0 : (s.clearKind).fNonce0 = s.fNonce0 := rfl
@[simp] theorem State.clearKind_fNonce1 : (s.clearKind).fNonce1 = s.fNonce1 := rfl
@[simp] theorem State.clearKind_tag : (s.clearKind).tag = s.tag := rfl
@[simp] theorem State.clearKind_frameId : (s.clearKind).frameId = s.frameId := rfl
@[simp] theorem State.clearKind_frameDlc : (s.clearKind).frameDlc = s.frameDlc := rfl
@[simp] theorem State.clearKind_mem : (s.clearKind).mem = s.mem := rfl
@[simp] theorem State.clearKind_inputs : (s.clearKind).inputs = s.inputs := rfl
@[simp] theorem State.clearKind_latency : (s.clearKind).latency = s.latency := rfl
@[simp] theorem State.clearKind_issued : (s.clearKind).issued = s.issued := rfl
@[simp] theorem State.clearKind_draws : (s.clearKind).draws = s.draws := rfl
@[simp] theorem State.clearKind_answer : (s.clearKind).answer = s.answer := rfl

/-! ## `setKind`: the KIND of a decoded format (R98) -/

@[simp] theorem State.setKind_ie (k : Kind) : (s.setKind k).ie = s.ie := rfl
@[simp] theorem State.setKind_klen (k : Kind) : (s.setKind k).klen = s.klen := rfl
@[simp] theorem State.setKind_busy (k : Kind) : (s.setKind k).busy = s.busy := rfl
@[simp] theorem State.setKind_done (k : Kind) : (s.setKind k).done = s.done := rfl
@[simp] theorem State.setKind_matched (k : Kind) : (s.setKind k).matched = s.matched := rfl
@[simp] theorem State.setKind_mofs (k : Kind) : (s.setKind k).mofs = s.mofs := rfl
@[simp] theorem State.setKind_busyErr (k : Kind) : (s.setKind k).busyErr = s.busyErr := rfl
@[simp] theorem State.setKind_errCode (k : Kind) : (s.setKind k).errCode = s.errCode := rfl
@[simp] theorem State.setKind_rmap (k : Kind) : (s.setKind k).rmap = s.rmap := rfl
@[simp] theorem State.setKind_kind (k : Kind) : (s.setKind k).kind = kindBits k := rfl
@[simp] theorem State.setKind_pending (k : Kind) : (s.setKind k).pending = s.pending := rfl
@[simp] theorem State.setKind_nodeCnt (k : Kind) : (s.setKind k).nodeCnt = s.nodeCnt := rfl
@[simp] theorem State.setKind_txid (k : Kind) : (s.setKind k).txid = s.txid := rfl
@[simp] theorem State.setKind_time (k : Kind) : (s.setKind k).time = s.time := rfl
@[simp] theorem State.setKind_len (k : Kind) : (s.setKind k).len = s.len := rfl
@[simp] theorem State.setKind_tpos (k : Kind) : (s.setKind k).tpos = s.tpos := rfl
@[simp] theorem State.setKind_fType (k : Kind) : (s.setKind k).fType = s.fType := rfl
@[simp] theorem State.setKind_fDst (k : Kind) : (s.setKind k).fDst = s.fDst := rfl
@[simp] theorem State.setKind_fSrc (k : Kind) : (s.setKind k).fSrc = s.fSrc := rfl
@[simp] theorem State.setKind_fFwd (k : Kind) : (s.setKind k).fFwd = s.fFwd := rfl
@[simp] theorem State.setKind_fFrag (k : Kind) : (s.setKind k).fFrag = s.fFrag := rfl
@[simp] theorem State.setKind_fSignum (k : Kind) : (s.setKind k).fSignum = s.fSignum := rfl
@[simp] theorem State.setKind_fPresc (k : Kind) : (s.setKind k).fPresc = s.fPresc := rfl
@[simp] theorem State.setKind_fValue (k : Kind) : (s.setKind k).fValue = s.fValue := rfl
@[simp] theorem State.setKind_fMask (k : Kind) : (s.setKind k).fMask = s.fMask := rfl
@[simp] theorem State.setKind_fTime (k : Kind) : (s.setKind k).fTime = s.fTime := rfl
@[simp] theorem State.setKind_fCanid (k : Kind) : (s.setKind k).fCanid = s.fCanid := rfl
@[simp] theorem State.setKind_fNonce0 (k : Kind) : (s.setKind k).fNonce0 = s.fNonce0 := rfl
@[simp] theorem State.setKind_fNonce1 (k : Kind) : (s.setKind k).fNonce1 = s.fNonce1 := rfl
@[simp] theorem State.setKind_tag (k : Kind) : (s.setKind k).tag = s.tag := rfl
@[simp] theorem State.setKind_frameId (k : Kind) : (s.setKind k).frameId = s.frameId := rfl
@[simp] theorem State.setKind_frameDlc (k : Kind) : (s.setKind k).frameDlc = s.frameDlc := rfl
@[simp] theorem State.setKind_mem (k : Kind) : (s.setKind k).mem = s.mem := rfl
@[simp] theorem State.setKind_inputs (k : Kind) : (s.setKind k).inputs = s.inputs := rfl
@[simp] theorem State.setKind_latency (k : Kind) : (s.setKind k).latency = s.latency := rfl
@[simp] theorem State.setKind_issued (k : Kind) : (s.setKind k).issued = s.issued := rfl
@[simp] theorem State.setKind_draws (k : Kind) : (s.setKind k).draws = s.draws := rfl
@[simp] theorem State.setKind_answer (k : Kind) : (s.setKind k).answer = s.answer := rfl

/-! ## `writeBuf`: a write of BUF (R38) -/

@[simp] theorem State.writeBuf_ie (a : Nat) (bs : List Byte) : (s.writeBuf a bs).ie = s.ie := rfl
@[simp] theorem State.writeBuf_klen (a : Nat) (bs : List Byte) : (s.writeBuf a bs).klen = s.klen := rfl
@[simp] theorem State.writeBuf_busy (a : Nat) (bs : List Byte) : (s.writeBuf a bs).busy = s.busy := rfl
@[simp] theorem State.writeBuf_done (a : Nat) (bs : List Byte) : (s.writeBuf a bs).done = s.done := rfl
@[simp] theorem State.writeBuf_matched (a : Nat) (bs : List Byte) : (s.writeBuf a bs).matched = s.matched := rfl
@[simp] theorem State.writeBuf_mofs (a : Nat) (bs : List Byte) : (s.writeBuf a bs).mofs = s.mofs := rfl
@[simp] theorem State.writeBuf_busyErr (a : Nat) (bs : List Byte) : (s.writeBuf a bs).busyErr = s.busyErr := rfl
@[simp] theorem State.writeBuf_errCode (a : Nat) (bs : List Byte) : (s.writeBuf a bs).errCode = s.errCode := rfl
@[simp] theorem State.writeBuf_rmap (a : Nat) (bs : List Byte) : (s.writeBuf a bs).rmap = s.rmap := rfl
@[simp] theorem State.writeBuf_kind (a : Nat) (bs : List Byte) : (s.writeBuf a bs).kind = s.kind := rfl
@[simp] theorem State.writeBuf_pending (a : Nat) (bs : List Byte) : (s.writeBuf a bs).pending = s.pending := rfl
@[simp] theorem State.writeBuf_nodeCnt (a : Nat) (bs : List Byte) : (s.writeBuf a bs).nodeCnt = s.nodeCnt := rfl
@[simp] theorem State.writeBuf_txid (a : Nat) (bs : List Byte) : (s.writeBuf a bs).txid = s.txid := rfl
@[simp] theorem State.writeBuf_time (a : Nat) (bs : List Byte) : (s.writeBuf a bs).time = s.time := rfl
@[simp] theorem State.writeBuf_len (a : Nat) (bs : List Byte) : (s.writeBuf a bs).len = s.len := rfl
@[simp] theorem State.writeBuf_tpos (a : Nat) (bs : List Byte) : (s.writeBuf a bs).tpos = s.tpos := rfl
@[simp] theorem State.writeBuf_fType (a : Nat) (bs : List Byte) : (s.writeBuf a bs).fType = s.fType := rfl
@[simp] theorem State.writeBuf_fDst (a : Nat) (bs : List Byte) : (s.writeBuf a bs).fDst = s.fDst := rfl
@[simp] theorem State.writeBuf_fSrc (a : Nat) (bs : List Byte) : (s.writeBuf a bs).fSrc = s.fSrc := rfl
@[simp] theorem State.writeBuf_fFwd (a : Nat) (bs : List Byte) : (s.writeBuf a bs).fFwd = s.fFwd := rfl
@[simp] theorem State.writeBuf_fFrag (a : Nat) (bs : List Byte) : (s.writeBuf a bs).fFrag = s.fFrag := rfl
@[simp] theorem State.writeBuf_fSignum (a : Nat) (bs : List Byte) : (s.writeBuf a bs).fSignum = s.fSignum := rfl
@[simp] theorem State.writeBuf_fPresc (a : Nat) (bs : List Byte) : (s.writeBuf a bs).fPresc = s.fPresc := rfl
@[simp] theorem State.writeBuf_fValue (a : Nat) (bs : List Byte) : (s.writeBuf a bs).fValue = s.fValue := rfl
@[simp] theorem State.writeBuf_fMask (a : Nat) (bs : List Byte) : (s.writeBuf a bs).fMask = s.fMask := rfl
@[simp] theorem State.writeBuf_fTime (a : Nat) (bs : List Byte) : (s.writeBuf a bs).fTime = s.fTime := rfl
@[simp] theorem State.writeBuf_fCanid (a : Nat) (bs : List Byte) : (s.writeBuf a bs).fCanid = s.fCanid := rfl
@[simp] theorem State.writeBuf_fNonce0 (a : Nat) (bs : List Byte) : (s.writeBuf a bs).fNonce0 = s.fNonce0 := rfl
@[simp] theorem State.writeBuf_fNonce1 (a : Nat) (bs : List Byte) : (s.writeBuf a bs).fNonce1 = s.fNonce1 := rfl
@[simp] theorem State.writeBuf_tag (a : Nat) (bs : List Byte) : (s.writeBuf a bs).tag = s.tag := rfl
@[simp] theorem State.writeBuf_frameId (a : Nat) (bs : List Byte) : (s.writeBuf a bs).frameId = s.frameId := rfl
@[simp] theorem State.writeBuf_frameDlc (a : Nat) (bs : List Byte) : (s.writeBuf a bs).frameDlc = s.frameDlc := rfl
@[simp] theorem State.writeBuf_mem (a : Nat) (bs : List Byte) : (s.writeBuf a bs).mem = s.mem.writeBytes (bufBase + a) bs := rfl
@[simp] theorem State.writeBuf_inputs (a : Nat) (bs : List Byte) : (s.writeBuf a bs).inputs = s.inputs := rfl
@[simp] theorem State.writeBuf_latency (a : Nat) (bs : List Byte) : (s.writeBuf a bs).latency = s.latency := rfl
@[simp] theorem State.writeBuf_issued (a : Nat) (bs : List Byte) : (s.writeBuf a bs).issued = s.issued := rfl
@[simp] theorem State.writeBuf_draws (a : Nat) (bs : List Byte) : (s.writeBuf a bs).draws = s.draws := rfl
@[simp] theorem State.writeBuf_answer (a : Nat) (bs : List Byte) : (s.writeBuf a bs).answer = s.answer := rfl

/-! ## `writeMac`: a write of MAC (R34) -/

@[simp] theorem State.writeMac_ie (t : List Byte) : (s.writeMac t).ie = s.ie := rfl
@[simp] theorem State.writeMac_klen (t : List Byte) : (s.writeMac t).klen = s.klen := rfl
@[simp] theorem State.writeMac_busy (t : List Byte) : (s.writeMac t).busy = s.busy := rfl
@[simp] theorem State.writeMac_done (t : List Byte) : (s.writeMac t).done = s.done := rfl
@[simp] theorem State.writeMac_matched (t : List Byte) : (s.writeMac t).matched = s.matched := rfl
@[simp] theorem State.writeMac_mofs (t : List Byte) : (s.writeMac t).mofs = s.mofs := rfl
@[simp] theorem State.writeMac_busyErr (t : List Byte) : (s.writeMac t).busyErr = s.busyErr := rfl
@[simp] theorem State.writeMac_errCode (t : List Byte) : (s.writeMac t).errCode = s.errCode := rfl
@[simp] theorem State.writeMac_rmap (t : List Byte) : (s.writeMac t).rmap = s.rmap := rfl
@[simp] theorem State.writeMac_kind (t : List Byte) : (s.writeMac t).kind = s.kind := rfl
@[simp] theorem State.writeMac_pending (t : List Byte) : (s.writeMac t).pending = s.pending := rfl
@[simp] theorem State.writeMac_nodeCnt (t : List Byte) : (s.writeMac t).nodeCnt = s.nodeCnt := rfl
@[simp] theorem State.writeMac_txid (t : List Byte) : (s.writeMac t).txid = s.txid := rfl
@[simp] theorem State.writeMac_time (t : List Byte) : (s.writeMac t).time = s.time := rfl
@[simp] theorem State.writeMac_len (t : List Byte) : (s.writeMac t).len = s.len := rfl
@[simp] theorem State.writeMac_tpos (t : List Byte) : (s.writeMac t).tpos = s.tpos := rfl
@[simp] theorem State.writeMac_fType (t : List Byte) : (s.writeMac t).fType = s.fType := rfl
@[simp] theorem State.writeMac_fDst (t : List Byte) : (s.writeMac t).fDst = s.fDst := rfl
@[simp] theorem State.writeMac_fSrc (t : List Byte) : (s.writeMac t).fSrc = s.fSrc := rfl
@[simp] theorem State.writeMac_fFwd (t : List Byte) : (s.writeMac t).fFwd = s.fFwd := rfl
@[simp] theorem State.writeMac_fFrag (t : List Byte) : (s.writeMac t).fFrag = s.fFrag := rfl
@[simp] theorem State.writeMac_fSignum (t : List Byte) : (s.writeMac t).fSignum = s.fSignum := rfl
@[simp] theorem State.writeMac_fPresc (t : List Byte) : (s.writeMac t).fPresc = s.fPresc := rfl
@[simp] theorem State.writeMac_fValue (t : List Byte) : (s.writeMac t).fValue = s.fValue := rfl
@[simp] theorem State.writeMac_fMask (t : List Byte) : (s.writeMac t).fMask = s.fMask := rfl
@[simp] theorem State.writeMac_fTime (t : List Byte) : (s.writeMac t).fTime = s.fTime := rfl
@[simp] theorem State.writeMac_fCanid (t : List Byte) : (s.writeMac t).fCanid = s.fCanid := rfl
@[simp] theorem State.writeMac_fNonce0 (t : List Byte) : (s.writeMac t).fNonce0 = s.fNonce0 := rfl
@[simp] theorem State.writeMac_fNonce1 (t : List Byte) : (s.writeMac t).fNonce1 = s.fNonce1 := rfl
@[simp] theorem State.writeMac_tag (t : List Byte) : (s.writeMac t).tag = s.tag := rfl
@[simp] theorem State.writeMac_frameId (t : List Byte) : (s.writeMac t).frameId = s.frameId := rfl
@[simp] theorem State.writeMac_frameDlc (t : List Byte) : (s.writeMac t).frameDlc = s.frameDlc := rfl
@[simp] theorem State.writeMac_mem (t : List Byte) : (s.writeMac t).mem = s.mem.writeBytes macBase t := rfl
@[simp] theorem State.writeMac_inputs (t : List Byte) : (s.writeMac t).inputs = s.inputs := rfl
@[simp] theorem State.writeMac_latency (t : List Byte) : (s.writeMac t).latency = s.latency := rfl
@[simp] theorem State.writeMac_issued (t : List Byte) : (s.writeMac t).issued = s.issued := rfl
@[simp] theorem State.writeMac_draws (t : List Byte) : (s.writeMac t).draws = s.draws := rfl
@[simp] theorem State.writeMac_answer (t : List Byte) : (s.writeMac t).answer = s.answer := rfl

/-! ## `writeReasm`: a write of REASM (R39) -/

@[simp] theorem State.writeReasm_ie (a : Nat) (bs : List Byte) : (s.writeReasm a bs).ie = s.ie := rfl
@[simp] theorem State.writeReasm_klen (a : Nat) (bs : List Byte) : (s.writeReasm a bs).klen = s.klen := rfl
@[simp] theorem State.writeReasm_busy (a : Nat) (bs : List Byte) : (s.writeReasm a bs).busy = s.busy := rfl
@[simp] theorem State.writeReasm_done (a : Nat) (bs : List Byte) : (s.writeReasm a bs).done = s.done := rfl
@[simp] theorem State.writeReasm_matched (a : Nat) (bs : List Byte) : (s.writeReasm a bs).matched = s.matched := rfl
@[simp] theorem State.writeReasm_mofs (a : Nat) (bs : List Byte) : (s.writeReasm a bs).mofs = s.mofs := rfl
@[simp] theorem State.writeReasm_busyErr (a : Nat) (bs : List Byte) : (s.writeReasm a bs).busyErr = s.busyErr := rfl
@[simp] theorem State.writeReasm_errCode (a : Nat) (bs : List Byte) : (s.writeReasm a bs).errCode = s.errCode := rfl
@[simp] theorem State.writeReasm_rmap (a : Nat) (bs : List Byte) : (s.writeReasm a bs).rmap = s.rmap := rfl
@[simp] theorem State.writeReasm_kind (a : Nat) (bs : List Byte) : (s.writeReasm a bs).kind = s.kind := rfl
@[simp] theorem State.writeReasm_pending (a : Nat) (bs : List Byte) : (s.writeReasm a bs).pending = s.pending := rfl
@[simp] theorem State.writeReasm_nodeCnt (a : Nat) (bs : List Byte) : (s.writeReasm a bs).nodeCnt = s.nodeCnt := rfl
@[simp] theorem State.writeReasm_txid (a : Nat) (bs : List Byte) : (s.writeReasm a bs).txid = s.txid := rfl
@[simp] theorem State.writeReasm_time (a : Nat) (bs : List Byte) : (s.writeReasm a bs).time = s.time := rfl
@[simp] theorem State.writeReasm_len (a : Nat) (bs : List Byte) : (s.writeReasm a bs).len = s.len := rfl
@[simp] theorem State.writeReasm_tpos (a : Nat) (bs : List Byte) : (s.writeReasm a bs).tpos = s.tpos := rfl
@[simp] theorem State.writeReasm_fType (a : Nat) (bs : List Byte) : (s.writeReasm a bs).fType = s.fType := rfl
@[simp] theorem State.writeReasm_fDst (a : Nat) (bs : List Byte) : (s.writeReasm a bs).fDst = s.fDst := rfl
@[simp] theorem State.writeReasm_fSrc (a : Nat) (bs : List Byte) : (s.writeReasm a bs).fSrc = s.fSrc := rfl
@[simp] theorem State.writeReasm_fFwd (a : Nat) (bs : List Byte) : (s.writeReasm a bs).fFwd = s.fFwd := rfl
@[simp] theorem State.writeReasm_fFrag (a : Nat) (bs : List Byte) : (s.writeReasm a bs).fFrag = s.fFrag := rfl
@[simp] theorem State.writeReasm_fSignum (a : Nat) (bs : List Byte) : (s.writeReasm a bs).fSignum = s.fSignum := rfl
@[simp] theorem State.writeReasm_fPresc (a : Nat) (bs : List Byte) : (s.writeReasm a bs).fPresc = s.fPresc := rfl
@[simp] theorem State.writeReasm_fValue (a : Nat) (bs : List Byte) : (s.writeReasm a bs).fValue = s.fValue := rfl
@[simp] theorem State.writeReasm_fMask (a : Nat) (bs : List Byte) : (s.writeReasm a bs).fMask = s.fMask := rfl
@[simp] theorem State.writeReasm_fTime (a : Nat) (bs : List Byte) : (s.writeReasm a bs).fTime = s.fTime := rfl
@[simp] theorem State.writeReasm_fCanid (a : Nat) (bs : List Byte) : (s.writeReasm a bs).fCanid = s.fCanid := rfl
@[simp] theorem State.writeReasm_fNonce0 (a : Nat) (bs : List Byte) : (s.writeReasm a bs).fNonce0 = s.fNonce0 := rfl
@[simp] theorem State.writeReasm_fNonce1 (a : Nat) (bs : List Byte) : (s.writeReasm a bs).fNonce1 = s.fNonce1 := rfl
@[simp] theorem State.writeReasm_tag (a : Nat) (bs : List Byte) : (s.writeReasm a bs).tag = s.tag := rfl
@[simp] theorem State.writeReasm_frameId (a : Nat) (bs : List Byte) : (s.writeReasm a bs).frameId = s.frameId := rfl
@[simp] theorem State.writeReasm_frameDlc (a : Nat) (bs : List Byte) : (s.writeReasm a bs).frameDlc = s.frameDlc := rfl
@[simp] theorem State.writeReasm_mem (a : Nat) (bs : List Byte) : (s.writeReasm a bs).mem = s.mem.writeBytes (reasmBase + a) bs := rfl
@[simp] theorem State.writeReasm_inputs (a : Nat) (bs : List Byte) : (s.writeReasm a bs).inputs = s.inputs := rfl
@[simp] theorem State.writeReasm_latency (a : Nat) (bs : List Byte) : (s.writeReasm a bs).latency = s.latency := rfl
@[simp] theorem State.writeReasm_issued (a : Nat) (bs : List Byte) : (s.writeReasm a bs).issued = s.issued := rfl
@[simp] theorem State.writeReasm_draws (a : Nat) (bs : List Byte) : (s.writeReasm a bs).draws = s.draws := rfl
@[simp] theorem State.writeReasm_answer (a : Nat) (bs : List Byte) : (s.writeReasm a bs).answer = s.answer := rfl

/-! ## `emitFrame`: EmitFrame (R170) -/

@[simp] theorem State.emitFrame_ie (c : CanId) (bs : List Byte) : (s.emitFrame c bs).ie = s.ie := rfl
@[simp] theorem State.emitFrame_klen (c : CanId) (bs : List Byte) : (s.emitFrame c bs).klen = s.klen := rfl
@[simp] theorem State.emitFrame_busy (c : CanId) (bs : List Byte) : (s.emitFrame c bs).busy = s.busy := rfl
@[simp] theorem State.emitFrame_done (c : CanId) (bs : List Byte) : (s.emitFrame c bs).done = s.done := rfl
@[simp] theorem State.emitFrame_matched (c : CanId) (bs : List Byte) : (s.emitFrame c bs).matched = s.matched := rfl
@[simp] theorem State.emitFrame_mofs (c : CanId) (bs : List Byte) : (s.emitFrame c bs).mofs = s.mofs := rfl
@[simp] theorem State.emitFrame_busyErr (c : CanId) (bs : List Byte) : (s.emitFrame c bs).busyErr = s.busyErr := rfl
@[simp] theorem State.emitFrame_errCode (c : CanId) (bs : List Byte) : (s.emitFrame c bs).errCode = s.errCode := rfl
@[simp] theorem State.emitFrame_rmap (c : CanId) (bs : List Byte) : (s.emitFrame c bs).rmap = s.rmap := rfl
@[simp] theorem State.emitFrame_kind (c : CanId) (bs : List Byte) : (s.emitFrame c bs).kind = s.kind := rfl
@[simp] theorem State.emitFrame_pending (c : CanId) (bs : List Byte) : (s.emitFrame c bs).pending = s.pending := rfl
@[simp] theorem State.emitFrame_nodeCnt (c : CanId) (bs : List Byte) : (s.emitFrame c bs).nodeCnt = s.nodeCnt := rfl
@[simp] theorem State.emitFrame_txid (c : CanId) (bs : List Byte) : (s.emitFrame c bs).txid = s.txid := rfl
@[simp] theorem State.emitFrame_time (c : CanId) (bs : List Byte) : (s.emitFrame c bs).time = s.time := rfl
@[simp] theorem State.emitFrame_len (c : CanId) (bs : List Byte) : (s.emitFrame c bs).len = s.len := rfl
@[simp] theorem State.emitFrame_tpos (c : CanId) (bs : List Byte) : (s.emitFrame c bs).tpos = s.tpos := rfl
@[simp] theorem State.emitFrame_fType (c : CanId) (bs : List Byte) : (s.emitFrame c bs).fType = s.fType := rfl
@[simp] theorem State.emitFrame_fDst (c : CanId) (bs : List Byte) : (s.emitFrame c bs).fDst = s.fDst := rfl
@[simp] theorem State.emitFrame_fSrc (c : CanId) (bs : List Byte) : (s.emitFrame c bs).fSrc = s.fSrc := rfl
@[simp] theorem State.emitFrame_fFwd (c : CanId) (bs : List Byte) : (s.emitFrame c bs).fFwd = s.fFwd := rfl
@[simp] theorem State.emitFrame_fFrag (c : CanId) (bs : List Byte) : (s.emitFrame c bs).fFrag = s.fFrag := rfl
@[simp] theorem State.emitFrame_fSignum (c : CanId) (bs : List Byte) : (s.emitFrame c bs).fSignum = s.fSignum := rfl
@[simp] theorem State.emitFrame_fPresc (c : CanId) (bs : List Byte) : (s.emitFrame c bs).fPresc = s.fPresc := rfl
@[simp] theorem State.emitFrame_fValue (c : CanId) (bs : List Byte) : (s.emitFrame c bs).fValue = s.fValue := rfl
@[simp] theorem State.emitFrame_fMask (c : CanId) (bs : List Byte) : (s.emitFrame c bs).fMask = s.fMask := rfl
@[simp] theorem State.emitFrame_fTime (c : CanId) (bs : List Byte) : (s.emitFrame c bs).fTime = s.fTime := rfl
@[simp] theorem State.emitFrame_fCanid (c : CanId) (bs : List Byte) : (s.emitFrame c bs).fCanid = s.fCanid := rfl
@[simp] theorem State.emitFrame_fNonce0 (c : CanId) (bs : List Byte) : (s.emitFrame c bs).fNonce0 = s.fNonce0 := rfl
@[simp] theorem State.emitFrame_fNonce1 (c : CanId) (bs : List Byte) : (s.emitFrame c bs).fNonce1 = s.fNonce1 := rfl
@[simp] theorem State.emitFrame_tag (c : CanId) (bs : List Byte) : (s.emitFrame c bs).tag = s.tag := rfl
@[simp] theorem State.emitFrame_frameId (c : CanId) (bs : List Byte) : (s.emitFrame c bs).frameId = c := rfl
@[simp] theorem State.emitFrame_frameDlc (c : CanId) (bs : List Byte) : (s.emitFrame c bs).frameDlc = BitVec.ofNat 4 bs.length := rfl
@[simp] theorem State.emitFrame_mem (c : CanId) (bs : List Byte) : (s.emitFrame c bs).mem = s.mem.writeBytes frameBase (bs ++ zeros (8 - bs.length)) := rfl
@[simp] theorem State.emitFrame_inputs (c : CanId) (bs : List Byte) : (s.emitFrame c bs).inputs = s.inputs := rfl
@[simp] theorem State.emitFrame_latency (c : CanId) (bs : List Byte) : (s.emitFrame c bs).latency = s.latency := rfl
@[simp] theorem State.emitFrame_issued (c : CanId) (bs : List Byte) : (s.emitFrame c bs).issued = s.issued := rfl
@[simp] theorem State.emitFrame_draws (c : CanId) (bs : List Byte) : (s.emitFrame c bs).draws = s.draws := rfl
@[simp] theorem State.emitFrame_answer (c : CanId) (bs : List Byte) : (s.emitFrame c bs).answer = s.answer := rfl

/-! ## `setPlaintext`: a MAC plaintext put into BUF (R240) -/

@[simp] theorem State.setPlaintext_ie (bs : List Byte) : (s.setPlaintext bs).ie = s.ie := rfl
@[simp] theorem State.setPlaintext_klen (bs : List Byte) : (s.setPlaintext bs).klen = s.klen := rfl
@[simp] theorem State.setPlaintext_busy (bs : List Byte) : (s.setPlaintext bs).busy = s.busy := rfl
@[simp] theorem State.setPlaintext_done (bs : List Byte) : (s.setPlaintext bs).done = s.done := rfl
@[simp] theorem State.setPlaintext_matched (bs : List Byte) : (s.setPlaintext bs).matched = s.matched := rfl
@[simp] theorem State.setPlaintext_mofs (bs : List Byte) : (s.setPlaintext bs).mofs = s.mofs := rfl
@[simp] theorem State.setPlaintext_busyErr (bs : List Byte) : (s.setPlaintext bs).busyErr = s.busyErr := rfl
@[simp] theorem State.setPlaintext_errCode (bs : List Byte) : (s.setPlaintext bs).errCode = s.errCode := rfl
@[simp] theorem State.setPlaintext_rmap (bs : List Byte) : (s.setPlaintext bs).rmap = s.rmap := rfl
@[simp] theorem State.setPlaintext_kind (bs : List Byte) : (s.setPlaintext bs).kind = s.kind := rfl
@[simp] theorem State.setPlaintext_pending (bs : List Byte) : (s.setPlaintext bs).pending = s.pending := rfl
@[simp] theorem State.setPlaintext_nodeCnt (bs : List Byte) : (s.setPlaintext bs).nodeCnt = s.nodeCnt := rfl
@[simp] theorem State.setPlaintext_txid (bs : List Byte) : (s.setPlaintext bs).txid = s.txid := rfl
@[simp] theorem State.setPlaintext_time (bs : List Byte) : (s.setPlaintext bs).time = s.time := rfl
@[simp] theorem State.setPlaintext_len (bs : List Byte) : (s.setPlaintext bs).len = BitVec.ofNat 7 bs.length := rfl
@[simp] theorem State.setPlaintext_tpos (bs : List Byte) : (s.setPlaintext bs).tpos = 0 := rfl
@[simp] theorem State.setPlaintext_fType (bs : List Byte) : (s.setPlaintext bs).fType = s.fType := rfl
@[simp] theorem State.setPlaintext_fDst (bs : List Byte) : (s.setPlaintext bs).fDst = s.fDst := rfl
@[simp] theorem State.setPlaintext_fSrc (bs : List Byte) : (s.setPlaintext bs).fSrc = s.fSrc := rfl
@[simp] theorem State.setPlaintext_fFwd (bs : List Byte) : (s.setPlaintext bs).fFwd = s.fFwd := rfl
@[simp] theorem State.setPlaintext_fFrag (bs : List Byte) : (s.setPlaintext bs).fFrag = s.fFrag := rfl
@[simp] theorem State.setPlaintext_fSignum (bs : List Byte) : (s.setPlaintext bs).fSignum = s.fSignum := rfl
@[simp] theorem State.setPlaintext_fPresc (bs : List Byte) : (s.setPlaintext bs).fPresc = s.fPresc := rfl
@[simp] theorem State.setPlaintext_fValue (bs : List Byte) : (s.setPlaintext bs).fValue = s.fValue := rfl
@[simp] theorem State.setPlaintext_fMask (bs : List Byte) : (s.setPlaintext bs).fMask = s.fMask := rfl
@[simp] theorem State.setPlaintext_fTime (bs : List Byte) : (s.setPlaintext bs).fTime = s.fTime := rfl
@[simp] theorem State.setPlaintext_fCanid (bs : List Byte) : (s.setPlaintext bs).fCanid = s.fCanid := rfl
@[simp] theorem State.setPlaintext_fNonce0 (bs : List Byte) : (s.setPlaintext bs).fNonce0 = s.fNonce0 := rfl
@[simp] theorem State.setPlaintext_fNonce1 (bs : List Byte) : (s.setPlaintext bs).fNonce1 = s.fNonce1 := rfl
@[simp] theorem State.setPlaintext_tag (bs : List Byte) : (s.setPlaintext bs).tag = s.tag := rfl
@[simp] theorem State.setPlaintext_frameId (bs : List Byte) : (s.setPlaintext bs).frameId = s.frameId := rfl
@[simp] theorem State.setPlaintext_frameDlc (bs : List Byte) : (s.setPlaintext bs).frameDlc = s.frameDlc := rfl
@[simp] theorem State.setPlaintext_mem (bs : List Byte) : (s.setPlaintext bs).mem = s.mem.writeBytes (bufBase + 0) bs := rfl
@[simp] theorem State.setPlaintext_inputs (bs : List Byte) : (s.setPlaintext bs).inputs = s.inputs := rfl
@[simp] theorem State.setPlaintext_latency (bs : List Byte) : (s.setPlaintext bs).latency = s.latency := rfl
@[simp] theorem State.setPlaintext_issued (bs : List Byte) : (s.setPlaintext bs).issued = s.issued := rfl
@[simp] theorem State.setPlaintext_draws (bs : List Byte) : (s.setPlaintext bs).draws = s.draws := rfl
@[simp] theorem State.setPlaintext_answer (bs : List Byte) : (s.setPlaintext bs).answer = s.answer := rfl

/-! ## `issue`: the issue of a command (R110) -/

@[simp] theorem State.issue_ie (w : Word) : (s.issue w).ie = s.ie := rfl
@[simp] theorem State.issue_klen (w : Word) : (s.issue w).klen = s.klen := rfl
@[simp] theorem State.issue_busy (w : Word) : (s.issue w).busy = true := rfl
@[simp] theorem State.issue_done (w : Word) : (s.issue w).done = false := rfl
@[simp] theorem State.issue_matched (w : Word) : (s.issue w).matched = s.matched := rfl
@[simp] theorem State.issue_mofs (w : Word) : (s.issue w).mofs = s.mofs := rfl
@[simp] theorem State.issue_busyErr (w : Word) : (s.issue w).busyErr = s.busyErr := rfl
@[simp] theorem State.issue_errCode (w : Word) : (s.issue w).errCode = s.errCode := rfl
@[simp] theorem State.issue_rmap (w : Word) : (s.issue w).rmap = s.rmap := rfl
@[simp] theorem State.issue_kind (w : Word) : (s.issue w).kind = s.kind := rfl
@[simp] theorem State.issue_pending (w : Word) : (s.issue w).pending = w := rfl
@[simp] theorem State.issue_nodeCnt (w : Word) : (s.issue w).nodeCnt = s.nodeCnt := rfl
@[simp] theorem State.issue_txid (w : Word) : (s.issue w).txid = s.txid := rfl
@[simp] theorem State.issue_time (w : Word) : (s.issue w).time = s.time := rfl
@[simp] theorem State.issue_len (w : Word) : (s.issue w).len = s.len := rfl
@[simp] theorem State.issue_tpos (w : Word) : (s.issue w).tpos = s.tpos := rfl
@[simp] theorem State.issue_fType (w : Word) : (s.issue w).fType = s.fType := rfl
@[simp] theorem State.issue_fDst (w : Word) : (s.issue w).fDst = s.fDst := rfl
@[simp] theorem State.issue_fSrc (w : Word) : (s.issue w).fSrc = s.fSrc := rfl
@[simp] theorem State.issue_fFwd (w : Word) : (s.issue w).fFwd = s.fFwd := rfl
@[simp] theorem State.issue_fFrag (w : Word) : (s.issue w).fFrag = s.fFrag := rfl
@[simp] theorem State.issue_fSignum (w : Word) : (s.issue w).fSignum = s.fSignum := rfl
@[simp] theorem State.issue_fPresc (w : Word) : (s.issue w).fPresc = s.fPresc := rfl
@[simp] theorem State.issue_fValue (w : Word) : (s.issue w).fValue = s.fValue := rfl
@[simp] theorem State.issue_fMask (w : Word) : (s.issue w).fMask = s.fMask := rfl
@[simp] theorem State.issue_fTime (w : Word) : (s.issue w).fTime = s.fTime := rfl
@[simp] theorem State.issue_fCanid (w : Word) : (s.issue w).fCanid = s.fCanid := rfl
@[simp] theorem State.issue_fNonce0 (w : Word) : (s.issue w).fNonce0 = s.fNonce0 := rfl
@[simp] theorem State.issue_fNonce1 (w : Word) : (s.issue w).fNonce1 = s.fNonce1 := rfl
@[simp] theorem State.issue_tag (w : Word) : (s.issue w).tag = s.tag := rfl
@[simp] theorem State.issue_frameId (w : Word) : (s.issue w).frameId = s.frameId := rfl
@[simp] theorem State.issue_frameDlc (w : Word) : (s.issue w).frameDlc = s.frameDlc := rfl
@[simp] theorem State.issue_mem (w : Word) : (s.issue w).mem = s.mem := rfl
@[simp] theorem State.issue_inputs (w : Word) : (s.issue w).inputs = s.inputs := rfl
@[simp] theorem State.issue_latency (w : Word) : (s.issue w).latency = Config.cmdLatency s.issued := rfl
@[simp] theorem State.issue_issued (w : Word) : (s.issue w).issued = s.issued + 1 := rfl
@[simp] theorem State.issue_draws (w : Word) : (s.issue w).draws = s.draws := rfl
@[simp] theorem State.issue_answer (w : Word) : (s.issue w).answer = s.answer := rfl

/-! ## `tick`: one step of the run -/

@[simp] theorem State.tick_ie : (s.tick).ie = s.ie := rfl
@[simp] theorem State.tick_klen : (s.tick).klen = s.klen := rfl
@[simp] theorem State.tick_busy : (s.tick).busy = s.busy := rfl
@[simp] theorem State.tick_done : (s.tick).done = s.done := rfl
@[simp] theorem State.tick_matched : (s.tick).matched = s.matched := rfl
@[simp] theorem State.tick_mofs : (s.tick).mofs = s.mofs := rfl
@[simp] theorem State.tick_busyErr : (s.tick).busyErr = s.busyErr := rfl
@[simp] theorem State.tick_errCode : (s.tick).errCode = s.errCode := rfl
@[simp] theorem State.tick_rmap : (s.tick).rmap = s.rmap := rfl
@[simp] theorem State.tick_kind : (s.tick).kind = s.kind := rfl
@[simp] theorem State.tick_pending : (s.tick).pending = s.pending := rfl
@[simp] theorem State.tick_nodeCnt : (s.tick).nodeCnt = s.nodeCnt := rfl
@[simp] theorem State.tick_txid : (s.tick).txid = s.txid := rfl
@[simp] theorem State.tick_time : (s.tick).time = s.time := rfl
@[simp] theorem State.tick_len : (s.tick).len = s.len := rfl
@[simp] theorem State.tick_tpos : (s.tick).tpos = s.tpos := rfl
@[simp] theorem State.tick_fType : (s.tick).fType = s.fType := rfl
@[simp] theorem State.tick_fDst : (s.tick).fDst = s.fDst := rfl
@[simp] theorem State.tick_fSrc : (s.tick).fSrc = s.fSrc := rfl
@[simp] theorem State.tick_fFwd : (s.tick).fFwd = s.fFwd := rfl
@[simp] theorem State.tick_fFrag : (s.tick).fFrag = s.fFrag := rfl
@[simp] theorem State.tick_fSignum : (s.tick).fSignum = s.fSignum := rfl
@[simp] theorem State.tick_fPresc : (s.tick).fPresc = s.fPresc := rfl
@[simp] theorem State.tick_fValue : (s.tick).fValue = s.fValue := rfl
@[simp] theorem State.tick_fMask : (s.tick).fMask = s.fMask := rfl
@[simp] theorem State.tick_fTime : (s.tick).fTime = s.fTime := rfl
@[simp] theorem State.tick_fCanid : (s.tick).fCanid = s.fCanid := rfl
@[simp] theorem State.tick_fNonce0 : (s.tick).fNonce0 = s.fNonce0 := rfl
@[simp] theorem State.tick_fNonce1 : (s.tick).fNonce1 = s.fNonce1 := rfl
@[simp] theorem State.tick_tag : (s.tick).tag = s.tag := rfl
@[simp] theorem State.tick_frameId : (s.tick).frameId = s.frameId := rfl
@[simp] theorem State.tick_frameDlc : (s.tick).frameDlc = s.frameDlc := rfl
@[simp] theorem State.tick_mem : (s.tick).mem = s.mem := rfl
@[simp] theorem State.tick_inputs : (s.tick).inputs = s.inputs := rfl
@[simp] theorem State.tick_latency : (s.tick).latency = s.latency - 1 := rfl
@[simp] theorem State.tick_issued : (s.tick).issued = s.issued := rfl
@[simp] theorem State.tick_draws : (s.tick).draws = s.draws := rfl
@[simp] theorem State.tick_answer : (s.tick).answer = s.answer := rfl

/-! ## `writeByte0`: F_TYPE and F_DST of a crypt frame (R204) -/

@[simp] theorem State.writeByte0_ie : (s.writeByte0).ie = s.ie := rfl
@[simp] theorem State.writeByte0_klen : (s.writeByte0).klen = s.klen := rfl
@[simp] theorem State.writeByte0_busy : (s.writeByte0).busy = s.busy := rfl
@[simp] theorem State.writeByte0_done : (s.writeByte0).done = s.done := rfl
@[simp] theorem State.writeByte0_matched : (s.writeByte0).matched = s.matched := rfl
@[simp] theorem State.writeByte0_mofs : (s.writeByte0).mofs = s.mofs := rfl
@[simp] theorem State.writeByte0_busyErr : (s.writeByte0).busyErr = s.busyErr := rfl
@[simp] theorem State.writeByte0_errCode : (s.writeByte0).errCode = s.errCode := rfl
@[simp] theorem State.writeByte0_rmap : (s.writeByte0).rmap = s.rmap := rfl
@[simp] theorem State.writeByte0_kind : (s.writeByte0).kind = s.kind := rfl
@[simp] theorem State.writeByte0_pending : (s.writeByte0).pending = s.pending := rfl
@[simp] theorem State.writeByte0_nodeCnt : (s.writeByte0).nodeCnt = s.nodeCnt := rfl
@[simp] theorem State.writeByte0_txid : (s.writeByte0).txid = s.txid := rfl
@[simp] theorem State.writeByte0_time : (s.writeByte0).time = s.time := rfl
@[simp] theorem State.writeByte0_len : (s.writeByte0).len = s.len := rfl
@[simp] theorem State.writeByte0_tpos : (s.writeByte0).tpos = s.tpos := rfl
@[simp] theorem State.writeByte0_fType : (s.writeByte0).fType = s.frameType := rfl
@[simp] theorem State.writeByte0_fDst : (s.writeByte0).fDst = s.frameDst := rfl
@[simp] theorem State.writeByte0_fSrc : (s.writeByte0).fSrc = s.fSrc := rfl
@[simp] theorem State.writeByte0_fFwd : (s.writeByte0).fFwd = s.fFwd := rfl
@[simp] theorem State.writeByte0_fFrag : (s.writeByte0).fFrag = s.fFrag := rfl
@[simp] theorem State.writeByte0_fSignum : (s.writeByte0).fSignum = s.fSignum := rfl
@[simp] theorem State.writeByte0_fPresc : (s.writeByte0).fPresc = s.fPresc := rfl
@[simp] theorem State.writeByte0_fValue : (s.writeByte0).fValue = s.fValue := rfl
@[simp] theorem State.writeByte0_fMask : (s.writeByte0).fMask = s.fMask := rfl
@[simp] theorem State.writeByte0_fTime : (s.writeByte0).fTime = s.fTime := rfl
@[simp] theorem State.writeByte0_fCanid : (s.writeByte0).fCanid = s.fCanid := rfl
@[simp] theorem State.writeByte0_fNonce0 : (s.writeByte0).fNonce0 = s.fNonce0 := rfl
@[simp] theorem State.writeByte0_fNonce1 : (s.writeByte0).fNonce1 = s.fNonce1 := rfl
@[simp] theorem State.writeByte0_tag : (s.writeByte0).tag = s.tag := rfl
@[simp] theorem State.writeByte0_frameId : (s.writeByte0).frameId = s.frameId := rfl
@[simp] theorem State.writeByte0_frameDlc : (s.writeByte0).frameDlc = s.frameDlc := rfl
@[simp] theorem State.writeByte0_mem : (s.writeByte0).mem = s.mem := rfl
@[simp] theorem State.writeByte0_inputs : (s.writeByte0).inputs = s.inputs := rfl
@[simp] theorem State.writeByte0_latency : (s.writeByte0).latency = s.latency := rfl
@[simp] theorem State.writeByte0_issued : (s.writeByte0).issued = s.issued := rfl
@[simp] theorem State.writeByte0_draws : (s.writeByte0).draws = s.draws := rfl
@[simp] theorem State.writeByte0_answer : (s.writeByte0).answer = s.answer := rfl

/-! ## `writeStatus`: the W1C bits of STATUS (R23) -/

@[simp] theorem State.writeStatus_ie (v : Word) : (s.writeStatus v).ie = s.ie := rfl
@[simp] theorem State.writeStatus_klen (v : Word) : (s.writeStatus v).klen = s.klen := rfl
@[simp] theorem State.writeStatus_busy (v : Word) : (s.writeStatus v).busy = s.busy := rfl
@[simp] theorem State.writeStatus_done (v : Word) : (s.writeStatus v).done = (s.done && !v.getLsbD 1) := rfl
@[simp] theorem State.writeStatus_matched (v : Word) : (s.writeStatus v).matched = s.matched := rfl
@[simp] theorem State.writeStatus_mofs (v : Word) : (s.writeStatus v).mofs = s.mofs := rfl
@[simp] theorem State.writeStatus_busyErr (v : Word) : (s.writeStatus v).busyErr = (s.busyErr && !v.getLsbD 6) := rfl
@[simp] theorem State.writeStatus_errCode (v : Word) : (s.writeStatus v).errCode = s.errCode := rfl
@[simp] theorem State.writeStatus_rmap (v : Word) : (s.writeStatus v).rmap = s.rmap := rfl
@[simp] theorem State.writeStatus_kind (v : Word) : (s.writeStatus v).kind = s.kind := rfl
@[simp] theorem State.writeStatus_pending (v : Word) : (s.writeStatus v).pending = s.pending := rfl
@[simp] theorem State.writeStatus_nodeCnt (v : Word) : (s.writeStatus v).nodeCnt = s.nodeCnt := rfl
@[simp] theorem State.writeStatus_txid (v : Word) : (s.writeStatus v).txid = s.txid := rfl
@[simp] theorem State.writeStatus_time (v : Word) : (s.writeStatus v).time = s.time := rfl
@[simp] theorem State.writeStatus_len (v : Word) : (s.writeStatus v).len = s.len := rfl
@[simp] theorem State.writeStatus_tpos (v : Word) : (s.writeStatus v).tpos = s.tpos := rfl
@[simp] theorem State.writeStatus_fType (v : Word) : (s.writeStatus v).fType = s.fType := rfl
@[simp] theorem State.writeStatus_fDst (v : Word) : (s.writeStatus v).fDst = s.fDst := rfl
@[simp] theorem State.writeStatus_fSrc (v : Word) : (s.writeStatus v).fSrc = s.fSrc := rfl
@[simp] theorem State.writeStatus_fFwd (v : Word) : (s.writeStatus v).fFwd = s.fFwd := rfl
@[simp] theorem State.writeStatus_fFrag (v : Word) : (s.writeStatus v).fFrag = s.fFrag := rfl
@[simp] theorem State.writeStatus_fSignum (v : Word) : (s.writeStatus v).fSignum = s.fSignum := rfl
@[simp] theorem State.writeStatus_fPresc (v : Word) : (s.writeStatus v).fPresc = s.fPresc := rfl
@[simp] theorem State.writeStatus_fValue (v : Word) : (s.writeStatus v).fValue = s.fValue := rfl
@[simp] theorem State.writeStatus_fMask (v : Word) : (s.writeStatus v).fMask = s.fMask := rfl
@[simp] theorem State.writeStatus_fTime (v : Word) : (s.writeStatus v).fTime = s.fTime := rfl
@[simp] theorem State.writeStatus_fCanid (v : Word) : (s.writeStatus v).fCanid = s.fCanid := rfl
@[simp] theorem State.writeStatus_fNonce0 (v : Word) : (s.writeStatus v).fNonce0 = s.fNonce0 := rfl
@[simp] theorem State.writeStatus_fNonce1 (v : Word) : (s.writeStatus v).fNonce1 = s.fNonce1 := rfl
@[simp] theorem State.writeStatus_tag (v : Word) : (s.writeStatus v).tag = s.tag := rfl
@[simp] theorem State.writeStatus_frameId (v : Word) : (s.writeStatus v).frameId = s.frameId := rfl
@[simp] theorem State.writeStatus_frameDlc (v : Word) : (s.writeStatus v).frameDlc = s.frameDlc := rfl
@[simp] theorem State.writeStatus_mem (v : Word) : (s.writeStatus v).mem = s.mem := rfl
@[simp] theorem State.writeStatus_inputs (v : Word) : (s.writeStatus v).inputs = s.inputs := rfl
@[simp] theorem State.writeStatus_latency (v : Word) : (s.writeStatus v).latency = s.latency := rfl
@[simp] theorem State.writeStatus_issued (v : Word) : (s.writeStatus v).issued = s.issued := rfl
@[simp] theorem State.writeStatus_draws (v : Word) : (s.writeStatus v).draws = s.draws := rfl
@[simp] theorem State.writeStatus_answer (v : Word) : (s.writeStatus v).answer = s.answer := rfl

end Sys2Proof.Machine
end

