-- ==== Sys2Proof/Laws/Completion.lean ====
section
/-! SUPPORT. What the shared operations of the commands can do, said once each: a completion step, an encoder, a
builder, a decoder. -/

namespace Sys2Proof.Machine

variable {s t : State} {onError : State → State} {body : Except ErrorCode State} {bs : List Byte}

/-- Raising an error is a completion with its code and nothing else (R112, R114). -/
@[simp] theorem State.raiseError_eq (s : State) (c : ErrorCode) : s.raiseError c = s.retire c := rfl

@[simp] theorem State.finish_ok (s t : State) (onError : State → State) :
    s.finish onError (.ok t) = t.retire .ok := rfl

@[simp] theorem State.finish_error (s : State) (onError : State → State) (c : ErrorCode) :
    s.finish onError (.error c) = (onError s).retire c := rfl

/-- All a completion step can do: commit a successful body, or discard a failed one. -/
theorem complete_cases (h : complete s onError body = .next t) :
    (∃ u, body = .ok u ∧ t = u.retire .ok) ∨ (∃ c, body = .error c ∧ t = (onError s).retire c) := by
  cases body with
  | ok u => exact .inl ⟨u, rfl, by simpa [complete] using h.symm⟩
  | error c => exact .inr ⟨c, rfl, by simpa [complete] using h.symm⟩

/-- All an encoder to one node can do (R170). -/
theorem encodeTo_cases (s : State) (bs : List Byte) :
    (s.inRange s.fDst = true ∧ encodeTo s bs = .ok (s.emitFrame s.txid bs)) ∨
      (s.inRange s.fDst = false ∧ encodeTo s bs = .error .range) := by
  unfold encodeTo
  cases h : s.inRange s.fDst <;> simp

/-- All an encoder that forwards a NodeId can do (R170). -/
theorem encodeForwarding_cases (s : State) (bs : List Byte) :
    ((s.inRange s.fDst = true ∧ s.inRange s.fFwd = true) ∧ encodeForwarding s bs = .ok (s.emitFrame s.txid bs)) ∨
      (¬ (s.inRange s.fDst = true ∧ s.inRange s.fFwd = true) ∧ encodeForwarding s bs = .error .range) := by
  unfold encodeForwarding
  by_cases h : s.inRange s.fDst = true ∧ s.inRange s.fFwd = true
  · exact .inl ⟨h, if_pos h⟩
  · exact .inr ⟨h, if_neg h⟩

/-- All a builder of a plaintext between two nodes can do (R240). -/
theorem buildBetween_cases (s : State) (bs : List Byte) :
    ((s.inRange s.fSrc = true ∧ s.inRange s.fDst = true) ∧ buildBetween s bs = .ok (s.setPlaintext bs)) ∨
      (¬ (s.inRange s.fSrc = true ∧ s.inRange s.fDst = true) ∧ buildBetween s bs = .error .range) := by
  unfold buildBetween
  by_cases h : s.inRange s.fSrc = true ∧ s.inRange s.fDst = true
  · exact .inl ⟨h, if_pos h⟩
  · exact .inr ⟨h, if_neg h⟩

/-- All a decoder can do: write the fields and the KIND of a format, or end in MALFORMED (R200). -/
theorem decodeAs_cases (s : State) (k : Option Kind) :
    (∃ f, k = some f ∧ decodeAs s k = .ok ((s.writeFields f).setKind f)) ∨
      (k = none ∧ decodeAs s k = .error .malformed) := by
  cases k with
  | none => exact .inr ⟨rfl, rfl⟩
  | some f => exact .inl ⟨f, rfl, rfl⟩

/-- No field write of a decoder touches the byte-array registers, STATUS, or anything but the field registers. -/
theorem writeFields_frame (s : State) (k : Kind) :
    s.writeFields k = { s with
      fType := (s.writeFields k).fType, fDst := (s.writeFields k).fDst, fFwd := (s.writeFields k).fFwd,
      fFrag := (s.writeFields k).fFrag, fSignum := (s.writeFields k).fSignum, fPresc := (s.writeFields k).fPresc,
      fValue := (s.writeFields k).fValue, fMask := (s.writeFields k).fMask, fTime := (s.writeFields k).fTime,
      fNonce0 := (s.writeFields k).fNonce0, fNonce1 := (s.writeFields k).fNonce1, tag := (s.writeFields k).tag } := by
  cases k <;> rfl

/-- No field write of a decoder touches the byte-array registers. -/
@[simp] theorem writeFields_mem (s : State) (k : Kind) : (s.writeFields k).mem = s.mem := by cases k <;> rfl

/-- The code of a format is below 13 (R98). -/
theorem kindBits_le (k : Kind) : (kindBits k).toNat ≤ 12 := by cases k <;> decide

/-- The code of an error is below 8 (R260). -/
theorem errorCodeBits_le (c : ErrorCode) : (errorCodeBits c).toNat ≤ 7 := by cases c <;> decide

end Sys2Proof.Machine
end

