-- ==== Sys2Proof/Laws/Frames.lean ====
section
/-! SUPPORT. What the shared operations of the codec leave, said once: the range check, an emitted frame, a plaintext in
BUF, an error, a stored fragment, and the fields a decoder reads out of a frame. -/

namespace Sys2Proof.Machine

/-- The range check of a NodeId (R25). -/
theorem State.inRange_iff (s : State) (n : Byte) : s.inRange n = true ↔ n.toNat < s.nodeCnt.toNat := by
  simp [State.inRange]

/-- A command whose completion is an emitted frame has that frame as its effect (R170). -/
theorem emitsFrame_of_exec {i : Instr} {s : State} {id : CanId} {bs : List Byte} (hl : bs.length ≤ 8)
    (h : exec i s = .next ((s.emitFrame id bs).retire .ok)) : emitsFrame i s id bs := by
  refine ⟨_, h, rfl, ?_, ?_⟩
  · have h1 := Memory.readBytes_writeBytes_same s.mem frameBase (bs ++ zeros (8 - bs.length))
    simp only [List.length_append, zeros_length] at h1
    rw [show bs.length + (8 - bs.length) = 8 by omega] at h1
    simpa [State.fbBytes, State.emitFrame, State.retire] using h1
  · intro b hb
    simp only [State.emitFrame, State.retire]
    apply Memory.read_writeBytes_out
    simp; omega

/-- A command whose completion is a plaintext in BUF has that plaintext as its effect (R240). -/
theorem buildsPlaintext_of_exec {i : Instr} {s : State} {bs : List Byte}
    (h : exec i s = .next ((s.setPlaintext bs).retire .ok)) : buildsPlaintext i s bs := by
  refine ⟨_, h, rfl, Memory.readBytes_writeBytes_same _ _ _, ?_⟩
  intro b hb
  simp only [State.setPlaintext, State.retire, State.writeBuf]
  apply Memory.read_writeBytes_out
  simp; omega

/-- A command whose completion only sets a code ends in that error (R114). -/
theorem endsInError_of_exec {i : Instr} {s : State} {c : ErrorCode} (h : exec i s = .next (s.retire c)) :
    endsInError i s (errorCodeBits c) := h

/-- Bytes of a byte array, read as a slice of a longer read. -/
theorem slice_readBytes (m : Memory) (a n q l : Nat) (h : q + l ≤ n) :
    slice (m.readBytes a n) q (q + l) = m.readBytes (a + q) l := by
  obtain ⟨k, rfl⟩ := Nat.le.dest h
  rw [slice, Memory.readBytes_append, Memory.readBytes_append, List.take_left' (by simp), List.drop_left' (by simp)]

/-- F_FRAG.SEQ as a number (R40). -/
theorem State.fragSeq_eq (s : State) : s.fragSeq = s.fFrag.toNat / 16 := by
  have := s.fFrag.isLt
  simp [State.fragSeq, BitVec.extractLsb'_toNat, Nat.shiftRight_eq_div_pow]
  omega

/-- The message type of byte 0 as a number (R88). -/
theorem State.frameType_toNat (s : State) : s.frameType.toNat = (s.fb 0).toNat / 64 := by
  have := (s.fb 0).isLt
  simp [State.frameType, BitVec.extractLsb'_toNat, Nat.shiftRight_eq_div_pow]
  omega

/-- SEQ of a received fragment as a number (R203). -/
theorem State.frameSeq_eq (s : State) : s.frameSeq = (s.fb 1).toNat / 16 := by
  have := (s.fb 1).isLt
  simp [State.frameSeq, BitVec.extractLsb'_toNat, Nat.shiftRight_eq_div_pow]
  omega

/-- FLEN of a received fragment as a number (R203). -/
theorem State.frameFlen_eq (s : State) : s.frameFlen = (s.fb 1).toNat % 16 := by
  simp [State.frameFlen, BitVec.extractLsb'_toNat]

/-- All FragCheck asks of a frame (R203). -/
theorem State.fragCheck_iff (s : State) :
    s.fragCheck = true ↔
      2 ≤ s.frameDlc.toNat ∧ 2 + s.frameFlen ≤ s.frameDlc.toNat ∧
        ((s.frameSeq ≤ 4 ∧ s.frameFlen = 6) ∨ (s.frameSeq = 5 ∧ s.frameFlen = 2)) := by
  simp only [State.fragCheck, fragLen, Bool.and_eq_true, decide_eq_true_eq, beq_iff_eq]
  split <;> constructor <;> intro h <;> omega

/-- A stored fragment reads back, and no other byte changes (R209). -/
theorem State.storeFragment_reads (s : State) :
    s.storeFragment.mem.readBytes (reasmBase + 6 * s.frameSeq) s.frameFlen = s.fbBytes 2 s.frameFlen ∧
      Memory.sameOutside s.mem s.storeFragment.mem (reasmBase + 6 * s.frameSeq) s.frameFlen := by
  have hl : (s.fbBytes 2 s.frameFlen).length = s.frameFlen := by simp [State.fbBytes]
  constructor
  · have h1 := Memory.readBytes_writeBytes_same s.mem (reasmBase + 6 * s.frameSeq) (s.fbBytes 2 s.frameFlen)
    rwa [hl] at h1
  · intro b hb
    apply Memory.read_writeBytes_out
    omega

end Sys2Proof.Machine
end

