-- ==== Sys2Proof/Laws/KeyWrap.lean ====
section
/-! SUPPORT. Key unwrap undoes key wrap, whatever the cipher, as long as its two functions are inverse to each other
(R1, R139, R140). -/

namespace Sys2Proof.Machine

theorem blockHigh_append_blockLow (b : Block) : blockHigh b ++ blockLow b = b := by
  apply BitVec.eq_of_getLsbD_eq
  intro i hi
  rw [BitVec.getLsbD_append]
  by_cases h : i < 64
  · simp [h, blockLow]
  · simp [h, blockHigh, show i - 64 < 64 by omega, show 64 + (i - 64) = i by omega]

@[simp] theorem blockHigh_append (x y : Semiblock) : blockHigh (x ++ y) = x := by
  apply BitVec.eq_of_getLsbD_eq
  intro i hi
  have h : (x ++ y).getLsbD (64 + i) = x.getLsbD i := by
    rw [BitVec.getLsbD_append, if_neg (by omega), Nat.add_sub_cancel_left]
  exact (BitVec.getLsbD_extractLsb' ..).trans (by rw [h]; simp [hi])

@[simp] theorem blockLow_append (x y : Semiblock) : blockLow (x ++ y) = y := by
  apply BitVec.eq_of_getLsbD_eq
  intro i hi
  have h : (x ++ y).getLsbD (0 + i) = y.getLsbD i := by
    rw [BitVec.getLsbD_append, if_pos (by omega), Nat.zero_add]
  exact (BitVec.getLsbD_extractLsb' ..).trans (by rw [h]; simp [hi])

@[simp] theorem semiBytes_length (x : Semiblock) : (semiBytes x).length = 8 := by simp [semiBytes]

@[simp] theorem semisBytes_length (rs : List Semiblock) : (semisBytes rs).length = 8 * rs.length := by
  induction rs with
  | nil => rfl
  | cons r rs ih => simp [semisBytes, ih]; omega

@[simp] theorem semisOf_length (bs : List Byte) (n : Nat) : (semisOf bs n).length = n := by
  induction n generalizing bs with
  | zero => rfl
  | succ n ih => simp [semisOf, ih]

@[simp] theorem semiOf_semiBytes (x : Semiblock) : semiOf (semiBytes x) = x := by
  apply BitVec.eq_of_toNat_eq
  have := x.isLt
  simp only [semiOf, semiBytes, fromBE_beBytes, BitVec.toNat_ofNat]
  omega

theorem semiBytes_semiOf (bs : List Byte) (h : bs.length = 8) : semiBytes (semiOf bs) = bs := by
  have h1 := fromBE_lt bs
  rw [h] at h1
  have h2 := beBytes_fromBE bs
  rw [h] at h2
  rw [semiBytes, semiOf, BitVec.toNat_ofNat, Nat.mod_eq_of_lt (by simpa using h1), h2]

theorem semisOf_semisBytes (rs : List Semiblock) : semisOf (semisBytes rs) rs.length = rs := by
  induction rs with
  | nil => rfl
  | cons r rs ih =>
    have h1 : (semiBytes r ++ semisBytes rs).take 8 = semiBytes r := by
      rw [List.take_left' (semiBytes_length r)]
    have h2 : (semiBytes r ++ semisBytes rs).drop 8 = semisBytes rs := by
      rw [List.drop_left' (semiBytes_length r)]
    simp [semisOf, semisBytes, h1, h2, ih]

theorem semisBytes_semisOf (bs : List Byte) (n : Nat) (h : bs.length = 8 * n) : semisBytes (semisOf bs n) = bs := by
  induction n generalizing bs with
  | zero => simp at h; subst h; rfl
  | succ n ih =>
    have h1 : (bs.take 8).length = 8 := by rw [List.length_take]; omega
    have h2 : (bs.drop 8).length = 8 * n := by rw [List.length_drop]; omega
    simp only [semisOf, semisBytes, semiBytes_semiOf _ h1, ih _ h2]
    exact List.take_append_drop 8 bs

@[simp] theorem wrapPass_length (enc : Block → Block) (t : Nat) (a : Semiblock) (rs : List Semiblock) :
    (wrapPass enc t a rs).2.length = rs.length := by
  induction rs generalizing t a with
  | nil => rfl
  | cons r rs ih => simp [wrapPass, ih]

@[simp] theorem unwrapPass_length (dec : Block → Block) (t : Nat) (a : Semiblock) (rs : List Semiblock) :
    (unwrapPass dec t a rs).2.length = rs.length := by
  induction rs generalizing t a with
  | nil => rfl
  | cons r rs ih => simp [unwrapPass, ih]

@[simp] theorem wrapPasses_length (enc : Block → Block) (a : Semiblock) (rs : List Semiblock) (k : Nat) :
    (wrapPasses enc a rs k).2.length = rs.length := by
  induction k with
  | zero => rfl
  | succ k ih => simp [wrapPasses, ih]

@[simp] theorem unwrapPasses_length (dec : Block → Block) (a : Semiblock) (rs : List Semiblock) (k : Nat) :
    (unwrapPasses dec a rs k).2.length = rs.length := by
  induction k generalizing a rs with
  | zero => rfl
  | succ k ih => simp [unwrapPasses, ih]

/-- One pass of R140 undoes the same pass of R139. -/
theorem unwrapPass_wrapPass (enc dec : Block → Block) (h : ∀ x, dec (enc x) = x) (t : Nat) (a : Semiblock)
    (rs : List Semiblock) :
    unwrapPass dec t (wrapPass enc t a rs).1 (wrapPass enc t a rs).2 = (a, rs) := by
  induction rs generalizing t a with
  | nil => rfl
  | cons r rs ih =>
    simp only [wrapPass, unwrapPass, ih]
    rw [BitVec.xor_assoc, BitVec.xor_self, BitVec.xor_zero, blockHigh_append_blockLow, h]
    simp

/-- All passes of R140 undo all passes of R139, from any start value. -/
theorem unwrapPasses_wrapPasses (enc dec : Block → Block) (h : ∀ x, dec (enc x) = x) (a : Semiblock)
    (rs : List Semiblock) (k : Nat) :
    unwrapPasses dec (wrapPasses enc a rs k).1 (wrapPasses enc a rs k).2 k = (a, rs) := by
  induction k with
  | zero => rfl
  | succ k ih =>
    have hl := wrapPasses_length enc a rs k
    simp only [unwrapPasses, wrapPass_length, wrapPasses, hl]
    rw [unwrapPass_wrapPass enc dec h]
    exact ih

/-- A wrapped string is 8 bytes longer than its data. -/
theorem keyWrap_length (enc : Block → Block) (p : List Byte) : (keyWrap enc p).length = 8 * (p.length / 8) + 8 := by
  simp [keyWrap]; omega

/-- Unwrapping what was wrapped from the start value `a`: the recovered integrity value is `a`. -/
theorem keyUnwrap_of_start (enc dec : Block → Block) (h : ∀ x, dec (enc x) = x) (a : Semiblock)
    (rs : List Semiblock) :
    keyUnwrap dec (semiBytes (wrapPasses enc a rs 6).1 ++ semisBytes (wrapPasses enc a rs 6).2) =
      (a == wrapConstant, semisBytes rs) := by
  have hl : (wrapPasses enc a rs 6).2.length = rs.length := wrapPasses_length enc a rs 6
  have hn : (semiBytes (wrapPasses enc a rs 6).1 ++ semisBytes (wrapPasses enc a rs 6).2).length / 8 - 1 =
      (wrapPasses enc a rs 6).2.length := by
    simp only [List.length_append, semiBytes_length, semisBytes_length]; omega
  rw [keyUnwrap, hn, List.take_left' (semiBytes_length _), List.drop_left' (semiBytes_length _), semiOf_semiBytes,
    semisOf_semisBytes, unwrapPasses_wrapPasses enc dec h]

/-- Key unwrap undoes key wrap, for key data of whole semiblocks. -/
theorem keyUnwrap_keyWrap (enc dec : Block → Block) (h : ∀ x, dec (enc x) = x) (p : List Byte)
    (hp : p.length % 8 = 0) : keyUnwrap dec (keyWrap enc p) = (true, p) := by
  rw [keyWrap, keyUnwrap_of_start enc dec h, semisBytes_semisOf p _ (by omega)]
  simp

/-- Unwrapping takes one semiblock away (R140). -/
theorem keyUnwrap_length (dec : Block → Block) (c : List Byte) (h : c.length % 8 = 0) (h8 : 8 ≤ c.length) :
    (keyUnwrap dec c).2.length = c.length - 8 := by
  simp only [keyUnwrap, semisBytes_length, unwrapPasses_length, semisOf_length]
  omega

/-- A MAC is 16 bytes (R133). -/
theorem cmacBytes_length (enc : Block → Block) (m : List Byte) : (cmacBytes enc m).length = 16 := by
  simp [cmacBytes, blockBytes]

/-- The block's own cipher satisfies R1. -/
theorem cipher_dec_enc (k : AesKey) (x : Block) : Config.cipher.dec k (Config.cipher.enc k x) = x := by
  simp [Config.cipher]

theorem cipher_enc_dec (k : AesKey) (x : Block) : Config.cipher.enc k (Config.cipher.dec k x) = x := by
  simp [Config.cipher]

end Sys2Proof.Machine
end

