-- ==== Sys2Proof/Laws/PerInstr.lean ====
section
/-! SUPPORT. Statements made instruction by instruction (LAWS.json). -/

namespace Sys2Proof.Laws

/-- The word of the command decodes to the command, and is legal (R80, R81). -/
def EncodingRoundTrip.Statement (i : Instr) : Prop := decode (encode i) = .ok i ∧ i.wf = true

theorem EncodingRoundTrip.nop : EncodingRoundTrip.Statement .nop := ⟨rfl, rfl⟩

theorem EncodingRoundTrip.cmac : EncodingRoundTrip.Statement .cmac := ⟨rfl, rfl⟩

theorem EncodingRoundTrip.sign : EncodingRoundTrip.Statement .sign := ⟨rfl, rfl⟩

theorem EncodingRoundTrip.verify : EncodingRoundTrip.Statement .verify := ⟨rfl, rfl⟩

theorem EncodingRoundTrip.verifyW : EncodingRoundTrip.Statement .verifyW := ⟨rfl, rfl⟩

theorem EncodingRoundTrip.gensub : EncodingRoundTrip.Statement .gensub := ⟨rfl, rfl⟩

theorem EncodingRoundTrip.wrap : EncodingRoundTrip.Statement .wrap := ⟨rfl, rfl⟩

theorem EncodingRoundTrip.unwrap : EncodingRoundTrip.Statement .unwrap := ⟨rfl, rfl⟩

theorem EncodingRoundTrip.unwrapr : EncodingRoundTrip.Statement .unwrapr := ⟨rfl, rfl⟩

theorem EncodingRoundTrip.encrq : EncodingRoundTrip.Statement .encrq := ⟨rfl, rfl⟩

theorem EncodingRoundTrip.encch : EncodingRoundTrip.Statement .encch := ⟨rfl, rfl⟩

theorem EncodingRoundTrip.encchN : EncodingRoundTrip.Statement .encchN := ⟨rfl, rfl⟩

theorem EncodingRoundTrip.encfrag : EncodingRoundTrip.Statement .encfrag := ⟨rfl, rfl⟩

theorem EncodingRoundTrip.encack : EncodingRoundTrip.Statement .encack := ⟨rfl, rfl⟩

theorem EncodingRoundTrip.encsig16 : EncodingRoundTrip.Statement .encsig16 := ⟨rfl, rfl⟩

theorem EncodingRoundTrip.encareq : EncodingRoundTrip.Statement .encareq := ⟨rfl, rfl⟩

theorem EncodingRoundTrip.encareqM : EncodingRoundTrip.Statement .encareqM := ⟨rfl, rfl⟩

theorem EncodingRoundTrip.encsig32 : EncodingRoundTrip.Statement .encsig32 := ⟨rfl, rfl⟩

theorem EncodingRoundTrip.encplain : EncodingRoundTrip.Statement .encplain := ⟨rfl, rfl⟩

theorem EncodingRoundTrip.enctime : EncodingRoundTrip.Statement .enctime := ⟨rfl, rfl⟩

theorem EncodingRoundTrip.enctimeM : EncodingRoundTrip.Statement .enctimeM := ⟨rfl, rfl⟩

theorem EncodingRoundTrip.deccrypt : EncodingRoundTrip.Statement .deccrypt := ⟨rfl, rfl⟩

theorem EncodingRoundTrip.deccryptK : EncodingRoundTrip.Statement .deccryptK := ⟨rfl, rfl⟩

theorem EncodingRoundTrip.decsig32 : EncodingRoundTrip.Statement .decsig32 := ⟨rfl, rfl⟩

theorem EncodingRoundTrip.decplain : EncodingRoundTrip.Statement .decplain := ⟨rfl, rfl⟩

theorem EncodingRoundTrip.dectime : EncodingRoundTrip.Statement .dectime := ⟨rfl, rfl⟩

theorem EncodingRoundTrip.fragst : EncodingRoundTrip.Statement .fragst := ⟨rfl, rfl⟩

theorem EncodingRoundTrip.rclr : EncodingRoundTrip.Statement .rclr := ⟨rfl, rfl⟩

theorem EncodingRoundTrip.ptsig16 : EncodingRoundTrip.Statement .ptsig16 := ⟨rfl, rfl⟩

theorem EncodingRoundTrip.ptsig32 : EncodingRoundTrip.Statement .ptsig32 := ⟨rfl, rfl⟩

theorem EncodingRoundTrip.ptack : EncodingRoundTrip.Statement .ptack := ⟨rfl, rfl⟩

theorem EncodingRoundTrip.ptareq : EncodingRoundTrip.Statement .ptareq := ⟨rfl, rfl⟩

theorem EncodingRoundTrip.pttime : EncodingRoundTrip.Statement .pttime := ⟨rfl, rfl⟩

theorem EncodingRoundTrip.ptskey : EncodingRoundTrip.Statement .ptskey := ⟨rfl, rfl⟩

end Sys2Proof.Laws
end

