-- ==== Sys2Proof/Laws/Step.lean ====
section
/-! SUPPORT. What a step can do, said once: the completion of the command in flight, an event from outside, or
nothing. -/

namespace Sys2Proof.Machine

/-- All a step can do: perform the command in flight, complete an illegal word, perform the next event from outside, or
let a step of the run pass. -/
theorem step_cases {s t : State} (h : step s = .next t) :
    (s.busy = true ∧ s.latency = 0 ∧ ∃ i, decode s.pending = .ok i ∧ exec i s = .next t) ∨
      (s.busy = true ∧ s.latency = 0 ∧ (∃ e, decode s.pending = .error e) ∧ completeIllegal s = .next t) ∨
        (¬ (s.busy = true ∧ s.latency = 0) ∧
          ((s.inputs = [] ∧ t = s.tick) ∨
            ∃ e rest, s.inputs = e :: rest ∧ hostStep { s.tick with inputs := rest } e = .next t)) := by
  unfold step at h
  by_cases hd : s.busy = true ∧ s.latency = 0
  · rw [if_pos (by simp [hd])] at h
    unfold completionStep at h
    cases hw : decode s.pending with
    | ok i => rw [hw] at h; exact .inl ⟨hd.1, hd.2, i, rfl, h⟩
    | error e => rw [hw] at h; exact .inr (.inl ⟨hd.1, hd.2, ⟨e, rfl⟩, h⟩)
  · rw [if_neg (by simpa using hd)] at h
    refine .inr (.inr ⟨hd, ?_⟩)
    cases hi : s.inputs with
    | nil => rw [hi] at h; exact .inl ⟨rfl, by simpa using h.symm⟩
    | cons e rest => rw [hi] at h; exact .inr ⟨e, rest, rfl, h⟩

/-- A step while no completion is due performs the next event from outside. -/
theorem step_host {s : State} {e : HostEvent} {rest : List HostEvent} (h : ¬ (s.busy = true ∧ s.latency = 0))
    (hi : s.inputs = e :: rest) : step s = hostStep { s.tick with inputs := rest } e := by
  unfold step
  rw [if_neg (by simpa using h), hi]

/-- One more step of a run. -/
theorem run_succ (k : Nat) (s : State) :
    Sys2Proof.core.run (k + 1) s =
      match step s with
      | .next t => Sys2Proof.core.run k t
      | .fault r => .fault r
      | .refused r => .refused r := by
  cases h : step s <;> simp [Host.Core.run, Sys2Proof.core, h]

end Sys2Proof.Machine
end

