-- ==== Sys2Proof/Tests/Fips197.lean ====
section
/-! SUPPORT. FIPS-197 AES-128 and AES-192, for the tests only: the published vectors of RFC 4493 and RFC 3394 that
spec/95_test_vectors.md quotes need the real cipher, which the model leaves open (R1). Written from FIPS-197; nothing
of the model imports this file. -/

namespace Sys2Proof.Tests.Fips197

/-- The substitution table, entry `x` in bits `[8x+7:8x]`. -/
def sboxTable : Nat :=
  2 ^ 0 * 0xc072a49cafa2d4adf04759fa7dc982ca76abd7fe2b670130c56f6bf27b777c63 +
  2 ^ 256 * 0x75b227ebe28012079a059618c323c7041531d871f1e5a534ccf73f362693fdb7 +
  2 ^ 512 * 0xcf584c4a39becb6a5bb1fc20ed00d153842fe329b3d63b52a05a6e1b1a2c8309 +
  2 ^ 768 * 0xd2f3ff1021dab6bcf5389d928f40a351a89f3c507f02f94585334d43fbaaefd0 +
  2 ^ 1024 * 0xdb0b5ede14b8ee4688902a22dc4f816073195d643d7ea7c41744975fec130ccd +
  2 ^ 1280 * 0x08ae7a65eaf4566ca94ed58d6d37c8e779e4959162acd3c25c2406490a3a32e0 +
  2 ^ 1536 * 0x9e1dc186b95735610ef6034866b53e708a8bbd4b1f74dde8c6b4a61c2e2578ba +
  2 ^ 1792 * 0x16bb54b00f2d99416842e6bf0d89a18cdf2855cee9871e9b948ed9691198f8e1

/-- The inverse substitution table, entry `x` in bits `[8x+7:8x]`. -/
def invSboxTable : Nat :=
  2 ^ 0 * 0xcbe9dec444438e3487ff2f9b8239e37cfbd7f3819ea340bf38a53630d56a0952 +
  2 ^ 256 * 0x25d18b6d49a25b76b224d92866a12e084ec3fa420b954cee3d23c2a632947b54 +
  2 ^ 512 * 0x849d8da75746155edab9edfd5048706c92b6655dcc5ca4d41698688664f6f872 +
  2 ^ 768 * 0x6b8a130103bdafc1020f3fca8f1e2cd00645b3b80558e4f70ad3bc8c00abd890 +
  2 ^ 1024 * 0x6edf751ce837f9e28535ade72274ac9673e6b4f0cecff297eadc674f4111913a +
  2 ^ 1280 * 0xf45acd78fec0db9a2079d2c64b3e56fc1bbe18aa0e62b76f89c5291d711af147 +
  2 ^ 1536 * 0xef9cc9939f7ae52d0d4ab519a97f51605fec8027591012b131c7078833a8dd1f +
  2 ^ 1792 * 0x7d0c2155631469e126d677ba7e042b17619953833cbbebc8b0f52aae4d3be0a0

/-- Multiplication by x in GF(2^8), entry `a` in bits `[8a+7:8a]`. -/
def xtimeTable : Nat :=
  2 ^ 0 * 0x3e3c3a38363432302e2c2a28262422201e1c1a18161412100e0c0a0806040200 +
  2 ^ 256 * 0x7e7c7a78767472706e6c6a68666462605e5c5a58565452504e4c4a4846444240 +
  2 ^ 512 * 0xbebcbab8b6b4b2b0aeacaaa8a6a4a2a09e9c9a98969492908e8c8a8886848280 +
  2 ^ 768 * 0xfefcfaf8f6f4f2f0eeeceae8e6e4e2e0dedcdad8d6d4d2d0cecccac8c6c4c2c0 +
  2 ^ 1024 * 0x252721232d2f292b353731333d3f393b050701030d0f090b151711131d1f191b +
  2 ^ 1280 * 0x656761636d6f696b757771737d7f797b454741434d4f494b555751535d5f595b +
  2 ^ 1536 * 0xa5a7a1a3adafa9abb5b7b1b3bdbfb9bb858781838d8f898b959791939d9f999b +
  2 ^ 1792 * 0xe5e7e1e3edefe9ebf5f7f1f3fdfff9fbc5c7c1c3cdcfc9cbd5d7d1d3dddfd9db

/-- One entry of a 256-byte table. -/
def entry (t x : Nat) : Nat := Nat.mod (Nat.shiftRight t (Nat.mul 8 x)) 256

/-- Multiplication by x in GF(2^8). -/
def xtime (a : Nat) : Nat := entry xtimeTable a

/-- The exclusive or of four numbers. -/
def xor4 (a b c d : Nat) : Nat := Nat.xor (Nat.xor a b) (Nat.xor c d)

/-- MixColumns: each byte is `2·a ⊕ 3·b ⊕ c ⊕ d`. -/
def mixColumns : List Nat → List Nat
  | a :: b :: c :: d :: rest =>
    xor4 (xtime (Nat.xor a b)) b c d :: xor4 (xtime (Nat.xor b c)) c d a ::
    xor4 (xtime (Nat.xor c d)) d a b :: xor4 (xtime (Nat.xor d a)) a b c :: mixColumns rest
  | _ => []

/-- What InvMixColumns adds before MixColumns: `4·(a ⊕ c)` to the first and third byte of a column, `4·(b ⊕ d)` to the
others. -/
def preMix : List Nat → List Nat
  | a :: b :: c :: d :: rest =>
    let u := xtime (xtime (Nat.xor a c))
    let v := xtime (xtime (Nat.xor b d))
    Nat.xor a u :: Nat.xor b v :: Nat.xor c u :: Nat.xor d v :: preMix rest
  | _ => []

/-- InvMixColumns, as MixColumns after `preMix`. -/
def invMixColumns (s : List Nat) : List Nat := mixColumns (preMix s)

/-- ShiftRows. -/
def shiftRows : List Nat → List Nat
  | [a, b, c, d, e, f, g, h, i, j, k, l, m, n, o, p] =>
    [a, f, k, p, e, j, o, d, i, n, c, h, m, b, g, l]
  | _ => []

/-- InvShiftRows. -/
def invShiftRows : List Nat → List Nat
  | [a, b, c, d, e, f, g, h, i, j, k, l, m, n, o, p] =>
    [a, n, k, h, e, b, o, l, i, f, c, p, m, j, g, d]
  | _ => []

def xorBytes : List Nat → List Nat → List Nat := List.zipWith Nat.xor

/-- `n` more words of the key schedule, from the words so far in reverse order; `i` is the next word's index and `r`
the next round constant. -/
def expand (nk : Nat) : Nat → Nat → Nat → List (List Nat) → List (List Nat)
  | 0, _, _, ws => ws.reverse
  | n + 1, i, r, ws =>
    let prev := ws.headD []
    let old := ws.getD (nk - 1) []
    if i % nk = 0 then
      let sub := (prev.tail ++ prev.take 1).map (entry sboxTable)
      let t := xorBytes sub [r, 0, 0, 0]
      expand nk n (i + 1) (xtime r) (xorBytes old t :: ws)
    else expand nk n (i + 1) r (xorBytes old prev :: ws)

/-- The bytes of a number, most significant first. -/
def bytesOf : Nat → Nat → List Nat
  | 0, _ => []
  | n + 1, v => Nat.mod (Nat.shiftRight v (Nat.mul 8 n)) 256 :: bytesOf n v

def wordsOf : Nat → List Nat → List (List Nat)
  | 0, _ => []
  | n + 1, bs => bs.take 4 :: wordsOf n (bs.drop 4)

/-- A list cut into pieces of four words, joined. -/
def roundKeysOf : Nat → List (List Nat) → List (List Nat)
  | 0, _ => []
  | n + 1, ws => (ws.take 4).flatten :: roundKeysOf n (ws.drop 4)

/-- The round keys of a key: 11 for AES-128, 13 for AES-192. -/
def roundKeys : AesKey → List (List Nat)
  | .aes128 k => roundKeysOf 11 (expand 4 40 4 1 (wordsOf 4 (bytesOf 16 k.toNat)).reverse)
  | .aes192 k => roundKeysOf 13 (expand 6 46 6 1 (wordsOf 6 (bytesOf 24 k.toNat)).reverse)

def encRounds : List (List Nat) → List Nat → List Nat
  | [], s => s
  | [k], s => xorBytes (shiftRows (s.map (entry sboxTable))) k
  | k :: ks, s => encRounds ks (xorBytes (mixColumns (shiftRows (s.map (entry sboxTable)))) k)

def decRounds : List (List Nat) → List Nat → List Nat
  | [], s => s
  | [k], s => xorBytes ((invShiftRows s).map (entry invSboxTable)) k
  | k :: ks, s => decRounds ks (invMixColumns (xorBytes ((invShiftRows s).map (entry invSboxTable)) k))

def valueOf (bs : List Nat) : Nat := bs.foldl (fun v b => Nat.add (Nat.mul 256 v) b) 0

/-- FIPS-197 Cipher. -/
def encrypt (k : AesKey) (x : Block) : Block :=
  match roundKeys k with
  | [] => 0
  | k0 :: ks => BitVec.ofNat 128 (valueOf (encRounds ks (xorBytes (bytesOf 16 x.toNat) k0)))

/-- FIPS-197 InvCipher. -/
def decrypt (k : AesKey) (x : Block) : Block :=
  match (roundKeys k).reverse with
  | [] => 0
  | k0 :: ks => BitVec.ofNat 128 (valueOf (decRounds ks (xorBytes (bytesOf 16 x.toNat) k0)))

/-- FIPS-197 AES as the cipher of the model's algorithms. -/
def cipher : Cipher where
  enc := encrypt
  dec := decrypt

end Sys2Proof.Tests.Fips197
end

