-- ==== Sys2Proof/Tests/Slice0.lean ====
section
/-! SUPPORT. The model's own tests: the decoding of words written from the command format, the checks of WellFormed
refusing ill-formed terms, and small vectors of spec/95_test_vectors.md, each named in the test's comment. The crypto
vectors run the commands' bodies over FIPS-197 AES (R1). -/

namespace Sys2Proof.Tests

open Sys2Proof Sys2Proof.Machine

set_option Elab.async false

/-! ## Decoding (30_encoding.md A.1 and A.2: reserved bits, F, OPC) -/

theorem test_decode_lifecycle : decode (0#23 ++ 0#1 ++ 0x00#8) = .ok .nop := rfl

theorem test_decode_crypto :
    decode (0#23 ++ 0#1 ++ 0x01#8) = .ok .cmac ∧ decode (0#23 ++ 0#1 ++ 0x02#8) = .ok .sign ∧
    decode (0#23 ++ 0#1 ++ 0x03#8) = .ok .verify ∧ decode (0#23 ++ 1#1 ++ 0x03#8) = .ok .verifyW ∧
    decode (0#23 ++ 0#1 ++ 0x04#8) = .ok .gensub ∧ decode (0#23 ++ 0#1 ++ 0x05#8) = .ok .wrap ∧
    decode (0#23 ++ 0#1 ++ 0x06#8) = .ok .unwrap ∧ decode (0#23 ++ 0#1 ++ 0x07#8) = .ok .unwrapr :=
  ⟨rfl, rfl, rfl, rfl, rfl, rfl, rfl, rfl⟩

theorem test_decode_encoders :
    decode (0#23 ++ 0#1 ++ 0x10#8) = .ok .encrq ∧ decode (0#23 ++ 0#1 ++ 0x11#8) = .ok .encch ∧
    decode (0#23 ++ 1#1 ++ 0x11#8) = .ok .encchN ∧ decode (0#23 ++ 0#1 ++ 0x12#8) = .ok .encfrag ∧
    decode (0#23 ++ 0#1 ++ 0x13#8) = .ok .encack ∧ decode (0#23 ++ 0#1 ++ 0x14#8) = .ok .encsig16 ∧
    decode (0#23 ++ 0#1 ++ 0x15#8) = .ok .encareq ∧ decode (0#23 ++ 1#1 ++ 0x15#8) = .ok .encareqM ∧
    decode (0#23 ++ 0#1 ++ 0x16#8) = .ok .encsig32 ∧ decode (0#23 ++ 0#1 ++ 0x17#8) = .ok .encplain ∧
    decode (0#23 ++ 0#1 ++ 0x18#8) = .ok .enctime ∧ decode (0#23 ++ 1#1 ++ 0x18#8) = .ok .enctimeM :=
  ⟨rfl, rfl, rfl, rfl, rfl, rfl, rfl, rfl, rfl, rfl, rfl, rfl⟩

theorem test_decode_decoders :
    decode (0#23 ++ 0#1 ++ 0x20#8) = .ok .deccrypt ∧ decode (0#23 ++ 1#1 ++ 0x20#8) = .ok .deccryptK ∧
    decode (0#23 ++ 0#1 ++ 0x21#8) = .ok .decsig32 ∧ decode (0#23 ++ 0#1 ++ 0x22#8) = .ok .decplain ∧
    decode (0#23 ++ 0#1 ++ 0x23#8) = .ok .dectime ∧ decode (0#23 ++ 0#1 ++ 0x24#8) = .ok .fragst ∧
    decode (0#23 ++ 0#1 ++ 0x25#8) = .ok .rclr :=
  ⟨rfl, rfl, rfl, rfl, rfl, rfl, rfl⟩

theorem test_decode_builders :
    decode (0#23 ++ 0#1 ++ 0x30#8) = .ok .ptsig16 ∧ decode (0#23 ++ 0#1 ++ 0x31#8) = .ok .ptsig32 ∧
    decode (0#23 ++ 0#1 ++ 0x32#8) = .ok .ptack ∧ decode (0#23 ++ 0#1 ++ 0x33#8) = .ok .ptareq ∧
    decode (0#23 ++ 0#1 ++ 0x34#8) = .ok .pttime ∧ decode (0#23 ++ 0#1 ++ 0x35#8) = .ok .ptskey :=
  ⟨rfl, rfl, rfl, rfl, rfl, rfl⟩

/-- The words of vectors C3 to C6 name no command. -/
theorem test_decode_illegal :
    decode (0#23 ++ 1#1 ++ 0x00#8) = .error .flagNotDefined ∧ decode (0#23 ++ 0#1 ++ 0x08#8) = .error .reservedOpcode ∧
    decode (1#23 ++ 0#1 ++ 0x01#8) = .error .reservedBits ∧ decode (0#23 ++ 1#1 ++ 0x01#8) = .error .flagNotDefined :=
  ⟨rfl, rfl, rfl, rfl⟩

/-- The words at the edges of R83's reserved ranges. -/
theorem test_decode_reserved_edges :
    ∀ o ∈ [0x08, 0x0F, 0x19, 0x1F, 0x26, 0x2F, 0x36, 0xFF],
      decode (BitVec.ofNat 32 o) = .error .reservedOpcode := by
  intro o h
  fin_cases h <;> rfl

theorem test_decodeTableWord : decodeTableWord 32 0x00000120 = some .deccryptK ∧ decodeTableWord 32 0x10F = none :=
  ⟨rfl, rfl⟩

/-! ## The checks of WellFormed, each refusing an ill-formed term -/

/-- CMAC with bit 9 set (vector C5). -/
theorem test_wf_reserved_bits : (CommandFields.reservedClear { opc := 0x01, f := false, rsv := 1 }) = false := rfl

/-- Opcode 0x08 is reserved (vector C4). -/
theorem test_wf_opcode : opcodeAssigned 0x08 = false := rfl

/-- CMAC has no flag (vector C6). -/
theorem test_wf_flag : (CommandFields.flagAllowed { opc := 0x01, f := true, rsv := 0 }) = false := rfl

/-- One failing check makes the word illegal. -/
theorem test_wf_legal :
    (commandFields 0x00000103).legal = true ∧ (commandFields 0x00000100).legal = false ∧
    (commandFields 0x00000036).legal = false ∧ (commandFields 0x80000000).legal = false := ⟨rfl, rfl, rfl, rfl⟩

/-- An access of 8 bits, one of more than 32, and one at an address that is not a multiple of 4 (vector V15). -/
theorem test_wf_access :
    ({ addr := 0x100, width := .byte, op := .read } : HostAccess).accepted = false ∧
    ({ addr := 0x100, width := .wider, op := .read } : HostAccess).accepted = false ∧
    ({ addr := 0x102, width := .word, op := .read } : HostAccess).accepted = false := ⟨rfl, rfl, rfl⟩

/-! ## Small states -/

/-- A string of `n` bytes, written as one big-endian number. -/
def hex (n v : Nat) : List Byte := beBytes n v

/-- The bytes of a byte array, from a window offset. -/
def held (s : State) (a : Nat) (bs : List Byte) : State := { s with mem := s.mem.writeBytes a bs }

/-- The RFC key (spec/95_test_vectors.md, Notation). -/
def rfcKey : State := held State.reset keyBase (hex 16 0x2b7e151628aed2a6abf7158809cf4f3c)

/-- KEK16 (spec/95_test_vectors.md, Notation). -/
def kek16 : State := held State.reset keyBase (hex 16 0x000102030405060708090a0b0c0d0e0f)

/-- KEK24 (spec/95_test_vectors.md, Notation). -/
def kek24 : State :=
  held { State.reset with klen := 1 } keyBase (hex 24 0x000102030405060708090a0b0c0d0e0f1011121314151617)

/-- A message in BUF, LEN its length. -/
def withMessage (s : State) (n v : Nat) : State := { held s bufBase (hex n v) with len := BitVec.ofNat 7 n }

/-- The M2 message (spec/95_test_vectors.md section 2) under the RFC key. -/
def m2 : State := withMessage rfcKey 16 0x6bc1bee22e409f96e93d7e117393172a

/-- A received frame: FRAME_DLC and its bytes. -/
def withDlc (dlc n v : Nat) : State := held { State.reset with frameDlc := BitVec.ofNat 4 dlc } frameBase (hex n v)

/-- The state a command leaves, for the commands that do not use the cipher. -/
def after (i : Instr) (s : State) : State :=
  match exec i s with
  | .next t => t
  | .fault _ => s
  | .refused _ => s

/-- The state of a step, where it is a next state. -/
def stepped (s : State) : State :=
  match step s with
  | .next t => t
  | .fault _ => s
  | .refused _ => s

/-- FRAME_ID, FRAME_DLC and the 8 payload bytes. -/
def frameOf (s : State) : Word × Nat × List Byte := (s.frameId.toWord, s.frameDlc.toNat, s.fbBytes 0 8)

/-! ## The command cycle -/

/-- Vector C2: NOP after an ICV clears ERRCODE. -/
theorem test_nop_clears_error : (after .nop { State.reset with errCode := 7, done := true }).statusWord = 0x00000002 := by
  decide +kernel

/-- Vector C3: NOP with F = 1 ends with ILLEGAL. -/
theorem test_illegal_word : (stepped (State.reset.withFetchWord 32 0x00000100)).statusWord = 0x00000106 := by
  decide +kernel

/-- The word placed by `withFetchWord` runs at the next step. -/
theorem test_withFetchWord : stepped (State.reset.withFetchWord 32 0x25) = after .rclr (State.reset.withFetchWord 32 0x25) := by
  rfl

/-- Vectors C7 and C8: a write of BUF0 while busy is lost and sets BUSYERR; STATUS's W1C bits act. -/
theorem test_write_busy :
    ((State.reset.issue 1).writeBusy 0x100 0xFFFFFFFF).statusWord = 0x00000041 ∧
    ((State.reset.issue 1).writeBusy 0x100 0xFFFFFFFF).mem = [] ∧
    ({ State.reset with done := true, busyErr := true }.writeIdle 0x008 0x42).statusWord = 0 := by
  refine ⟨?_, ?_, ?_⟩ <;> rfl

/-- Vector C11: completion raises the interrupt line, a W1C write of DONE lowers it. -/
theorem test_irq :
    (after .nop { State.reset with ie := true }).irq = true ∧
    ((after .nop { State.reset with ie := true }).writeReg .status 0x2).irq = false := ⟨rfl, rfl⟩

/-! ## Registers and the window -/

/-- Vectors V1 to V5. -/
theorem test_registers_plain :
    State.reset.readReg .id = 0x4D430001 ∧ (State.reset.writeReg .len 0xFFFF).readReg .len = 0x7F ∧
    (State.reset.writeReg .tpos 0xFFFF).readReg .tpos = 0x3F ∧
    ((State.reset.writeReg .nodeCnt 0).writeReg .nodeCnt 65).readReg .nodeCnt = 0x40 ∧
    (State.reset.writeReg .nodeCnt 4).readReg .nodeCnt = 4 := by decide +kernel

/-- Vectors V6 to V9. -/
theorem test_registers_masked :
    (State.reset.writeReg .frameDlc 0xFF).readReg .frameDlc = 0xF ∧
    (State.reset.writeReg .fCanid 0xFFFFFFFF).readReg .fCanid = 0x9FFFFFFF ∧
    (State.reset.writeReg .fMask 0xFFFFFFFF).readReg .fMask = 0x00FFFFFF ∧
    (State.reset.writeReg .fFrag 0xFFFFFFFF).readReg .fFrag = 0xFF := by decide +kernel

/-- Vectors V10 and V12 to V14. -/
theorem test_registers_special :
    (State.reset.writeReg (.key 0) 0x16157e2b).readReg (.key 0) = 0 ∧
    (State.reset.writeReg (.key 0) 0x16157e2b).keyArr 4 = hex 4 0x2b7e1516 ∧
    State.reset.writeReg (.mac 0) 1 = State.reset ∧
    (State.reset.writeReg .ctrl 0x32).readReg .ctrl = 0x32 ∧
    (m2.writeReg .ctrl 0xFFFFFFFF) = State.reset := by decide +kernel

/-- Vector V15: a half-word access is answered with a bus error and changes nothing else. -/
theorem test_bus_error :
    State.reset.windowAccess { addr := 0x100, width := .half, op := .write 1 } 0x100 =
      { State.reset with answer := .busError } := rfl

/-! ## Crypto commands -/

/-- Vector M1: the MAC of the empty message. -/
theorem test_cmac_empty :
    let t := rfcKey.finish id (cmacBody Fips197.cipher rfcKey)
    t.macArr = hex 16 0xbb1d6929e95937287fa37d129b756746 ∧ t.readReg (.mac 0) = 0x29691dbb ∧
      t.statusWord = 0x00000002 := by decide +kernel

/-- Vector M3: 40 bytes, padded. -/
theorem test_cmac_40 :
    (rfcKey.finish id (cmacBody Fips197.cipher (withMessage rfcKey 40
      0x6bc1bee22e409f96e93d7e117393172aae2d8a571e03ac9c9eb76fac45af8e5130c81c46a35ce411))).macArr =
      hex 16 0xdfa66747de9ae63030ca32611497c827 := by decide +kernel

/-- Vector K1. -/
theorem test_sign :
    let t := m2.finish id (signBody Fips197.cipher m2)
    t.tag = 0xb4160a07 ∧ t.readReg (.mac 3) = 0x7c284ad0 ∧ t.statusWord = 0x00000002 := by decide +kernel

/-- Vectors K2 and K3. -/
theorem test_verify :
    let run := fun s : State => (s.finish State.clearMatch (verifyBody Fips197.cipher s)).statusWord
    run { m2 with tag := 0xb4160a07 } = 0x0000000A ∧
    run { m2 with tag := 0xb4160a06, matched := true } = 0x00000002 := by decide +kernel

/-- Vector S5: a tag of TIME - 1, and one of TIME - 2. -/
theorem test_verifyW :
    let s := { withMessage rfcKey 8 0x3412000002033700 with time := 0x1234 }
    let run := fun g : Word => (s.finish State.clearMatch (verifyWBody Fips197.cipher { s with tag := g })).statusWord
    run 0x9e46f540 = 0x0000001A ∧ run 0xe3a832ab = 0x00000002 := by decide +kernel

/-- Vector K6. -/
theorem test_verifyW_badlen :
    (after .verifyW { rfcKey with len := 4, tpos := 1, matched := true, mofs := 2 }).statusWord = 0x00000306 := by
  decide +kernel

/-- The subkey table, RFC key and key 01 (R138). -/
theorem test_gensub :
    let run := fun s : State => (s.finish id (gensubBody Fips197.cipher s)).bufBytes 32
    run rfcKey = hex 32 0xfbeed618357133667c85e08f7236a8def7ddac306ae266ccf90bc11ee46d513b ∧
    run (held State.reset keyBase [1]) =
      hex 32 0xb81db0bbf2c23576e4939ba2d18a8c7b703b6177e5846aedc9273745a3151871 := by decide +kernel

/-- Vector W1. -/
theorem test_wrap :
    let s := withMessage kek16 16 0x00112233445566778899aabbccddeeff
    let t := s.finish id (wrapBody Fips197.cipher s)
    t.bufBytes 24 = hex 24 0x1fa68b0a8112b447aef34bd8fb5a7b829d3e862371d2cfe5 ∧ t.len = 24 := by decide +kernel

/-- Vectors K11 to K13. -/
theorem test_wrap_badlen :
    ∀ n ∈ [8, 20, 60, 64], (after .wrap { kek16 with len := BitVec.ofNat 7 n }).statusWord = 0x00000306 := by
  decide +kernel

/-- Vector S2 for W3: UNWRAP under the 192-bit key restores the key data. -/
theorem test_unwrap :
    let s := withMessage kek24 32 0x031d33264e15d33268f24ec260743edce1c6c7ddee725a936ba814915c6762d2
    let t := s.finish id (unwrapBody Fips197.cipher s)
    t.bufBytes 32 = hex 32 0x00112233445566778899aabbccddeeff00010203040506076ba814915c6762d2 ∧ t.len = 24 := by
  decide +kernel

/-- The negative vector of S2: the last ciphertext byte changed ends in ICV, BUF and LEN unchanged. -/
theorem test_unwrap_icv :
    let s := withMessage kek16 24 0x1fa68b0a8112b447aef34bd8fb5a7b829d3e862371d2cfe4
    let t := s.finish id (unwrapBody Fips197.cipher s)
    t.statusWord = 0x00000706 ∧ t.mem = s.mem ∧ t.len = 24 := by decide +kernel

/-- Program P3b: UNWRAPR recovers the delivered key from the six fragments in REASM. -/
theorem test_unwrapr :
    let s := held { kek16 with rmap := 0x3F } reasmBase
      (hex 32 0x948d760fc7056f13843e04fe9a23b346cc316ea2209f81cf6e96a63747397f44)
    let t := s.finish id (unwraprBody Fips197.cipher s)
    t.bufBytes 24 = hex 24 0x2b7e151628aed2a6abf7158809cf4f3c0203a1a2a3a4a5a6 ∧ t.len = 24 := by decide +kernel

/-- Vector K16, and R271: KEYLEN comes before INCOMPLETE. -/
theorem test_unwrapr_errors :
    (after .unwrapr kek16).statusWord = 0x00000606 ∧
    (after .unwrapr { kek16 with klen := 2 }).statusWord = 0x00000206 := by decide +kernel

/-! ## Frame encoders -/

/-- A block with the CAN identifier `v` in TXID and F_CANID. -/
def identified (v : Word) : State := { State.reset with txid := CanId.ofWord v, fCanid := CanId.ofWord v }

/-- Vectors E1 and E3. -/
theorem test_encrq :
    frameOf (after .encrq { identified 0x102 with fFwd := 3 }) = (0x102, 2, hex 8 0x0003000000000000) ∧
    (after .encrq { identified 0x102 with fFwd := 64 }).statusWord = 0x00000406 := by decide +kernel

/-- A block about to send a CHALLENGE (vectors E4 and E5). -/
def challenging : State := { identified 0x102 with fFwd := 3, fNonce0 := 0xa4a3a2a1, fNonce1 := 0xa6a5 }

theorem test_encch : frameOf (after .encch challenging) = (0x102, 2, hex 8 0x4003000000000000) := by decide +kernel

theorem test_encchN : frameOf (after .encchN challenging) = (0x102, 8, hex 8 0x4003a1a2a3a4a5a6) := by decide +kernel

/-- The block of vector S4a, fragment `q` selected. -/
def fragmenting (q : Nat) : State :=
  { withMessage (identified 0x100) 32 0x202122232425262728292a2b2c2d2e2f303132333435363738393a3b3c3d3e3f with
    fDst := 2, fFrag := BitVec.ofNat 8 (16 * q) }

/-- Fragments 0 and 5 of vector S4a. -/
theorem test_encfrag :
    frameOf (after .encfrag (fragmenting 0)) = (0x100, 8, hex 8 0x8206202122232425) ∧
    frameOf (after .encfrag (fragmenting 5)) = (0x100, 4, hex 8 0x82523e3f00000000) := by decide +kernel

/-- Vectors E8 and E10: SEQ 6 is RANGE; BADLEN comes before RANGE. -/
theorem test_encfrag_errors :
    (after .encfrag (fragmenting 6)).statusWord = 0x00000406 ∧
    (after .encfrag { fragmenting 0 with len := 24, fDst := 100 }).statusWord = 0x00000306 := by decide +kernel

/-- Vector E11. -/
theorem test_encack :
    frameOf (after .encack { identified 0x103 with fDst := 2, fMask := 0x00000c, tag := 0x1cfe5708 }) =
      (0x103, 8, hex 8 0x820c00000857fe1c) := by decide +kernel

/-- Vectors E13 and E15. -/
theorem test_encsig16 :
    frameOf (after .encsig16 { identified 0x102 with fDst := 3, fSignum := 1, fValue := 0x12340037, tag := 0x1cfe5708 }) =
      (0x102, 8, hex 8 0xc30137000857fe1c) ∧
    (after .encsig16 { State.reset with nodeCnt := 4, fDst := 4 }).statusWord = 0x00000406 := by decide +kernel

/-- A block about to send an AUTH-REQUEST (vectors E16 and E17). -/
def requesting : State := { identified 0x103 with fDst := 2, fSignum := 1, fPresc := 10, tag := 0x1cfe5708 }

theorem test_encareq : frameOf (after .encareq requesting) = (0x103, 3, hex 8 0xc2010a0000000000) := by decide +kernel

theorem test_encareqM : frameOf (after .encareqM requesting) = (0x103, 7, hex 8 0xc2010a0857fe1c00) := by decide +kernel

/-- Vector E18. -/
theorem test_encsig32 :
    frameOf (after .encsig32 { identified 0x210 with fValue := 0xdeadbeef, tag := 0x1cfe5708 }) =
      (0x210, 8, hex 8 0xefbeadde0857fe1c) := by decide +kernel

/-- Vector E19. -/
theorem test_encplain :
    frameOf (after .encplain { identified 0x80000210 with fValue := 0xdeadbeef }) =
      (0x80000210, 4, hex 8 0xefbeadde00000000) := by decide +kernel

/-- Vector E21. -/
theorem test_enctime :
    frameOf (after .enctime { identified 1 with fTime := 0x00012345, tag := 0x1cfe5708 }) =
      (1, 4, hex 8 0x4523010000000000) := by decide +kernel

/-- Vector E22. -/
theorem test_enctimeM :
    frameOf (after .enctimeM { identified 1 with fTime := 0x00012345, tag := 0x1cfe5708 }) =
      (1, 8, hex 8 0x452301000857fe1c) := by decide +kernel

/-! ## Frame decoders and reassembly -/

/-- Vector D5. -/
theorem test_deccrypt_challenge :
    let t := after .deccrypt (withDlc 8 8 0x4003a1a2a3a4a5a6)
    t.statusWord = 0x03000002 ∧ t.fType = 1 ∧ t.fDst = 0 ∧ t.fFwd = 3 ∧ t.fNonce0 = 0xa4a3a2a1 ∧ t.fNonce1 = 0xa6a5 := by
  decide +kernel

/-- Vectors D15 and D21. -/
theorem test_deccrypt_signal :
    let s := withDlc 8 8 0xc30137000857fe1c
    let t := after .deccrypt s
    t.statusWord = 0x06000002 ∧ t.fType = 3 ∧ t.fDst = 3 ∧ t.fSignum = 1 ∧ t.fValue = 0x37 ∧ t.tag = 0x1cfe5708 ∧
    (after .deccrypt { s with nodeCnt := 3 }).statusWord = 0x00000506 := by decide +kernel

/-- Vectors D7 and D12: the same frame with and without K. -/
theorem test_deccryptK :
    let s := withDlc 8 8 0x8206202122232425
    (after .deccryptK s).statusWord = 0x04000002 ∧ (after .deccryptK s).fFrag = 0x06 ∧
    (after .deccrypt s).statusWord = 0x05000002 ∧ (after .deccrypt s).fMask = 0x212006 ∧
    (after .deccrypt s).tag = 0x25242322 := by decide +kernel

/-- Vectors D9 and D11. -/
theorem test_deccryptK_malformed :
    (after .deccryptK (withDlc 3 3 0x82523e)).statusWord = 0x00000506 ∧
    (after .deccryptK (withDlc 8 8 0x8205000000000000)).statusWord = 0x00000506 := by decide +kernel

/-- Vectors D24 and D25. -/
theorem test_decsig32 :
    let t := after .decsig32 (withDlc 8 8 0xefbeadde0857fe1c)
    t.statusWord = 0x09000002 ∧ t.fValue = 0xdeadbeef ∧ t.tag = 0x1cfe5708 ∧
    (after .decsig32 { t with frameDlc := 4 }).statusWord = 0x00000506 := by decide +kernel

/-- Vector D26. -/
theorem test_decplain :
    let t := after .decplain (withDlc 4 4 0xefbeadde)
    t.statusWord = 0x0a000002 ∧ t.fValue = 0xdeadbeef := by decide +kernel

/-- Vectors D28 and D29. -/
theorem test_dectime :
    (after .dectime (withDlc 4 4 0x45230100)).statusWord = 0x0b000002 ∧
    (after .dectime (withDlc 8 8 0x452301000857fe1c)).statusWord = 0x0c000002 ∧
    (after .dectime (withDlc 8 8 0x452301000857fe1c)).fTime = 0x00012345 := by decide +kernel

/-- The first step of vector S4a: fragment 3 stored. -/
theorem test_fragst :
    let t := after .fragst (withDlc 8 8 0x8236323334353637)
    t.statusWord = 0x04080002 ∧ t.mem.readBytes 0x152 6 = hex 6 0x323334353637 ∧ t.fFrag = 0x36 := by decide +kernel

/-- Vector D23: FRAGST takes type 2 only. -/
theorem test_fragst_malformed :
    (after .fragst (withDlc 8 8 0xc30137000857fe1c)).statusWord = 0x00000506 := by decide +kernel

/-- Vector R3: RCLR keeps KIND. -/
theorem test_rclr :
    let t := after .rclr (held { State.reset with rmap := 0x3F, kind := 4 } reasmBase (hex 32 0x2021))
    t.statusWord = 0x04000002 ∧ t.mem = [] := by decide +kernel

/-! ## Plaintext builders -/

/-- BUF up to LEN, and TPOS. -/
def builtOf (s : State) : List Byte × Nat := (s.message, s.tpos.toNat)

/-- Vectors B1 and B3. -/
theorem test_ptsig16 :
    builtOf (after .ptsig16 { State.reset with time := 0x1234, tpos := 5, fSrc := 2, fDst := 3, fValue := 55 }) =
      (hex 8 0x3412000002033700, 0) ∧
    (after .ptsig16 { State.reset with nodeCnt := 4, fDst := 4 }).statusWord = 0x00000406 := by decide +kernel

/-- Vector B4. -/
theorem test_ptsig32 :
    builtOf (after .ptsig32 { identified 0x80000210 with time := 0x1234, fValue := 0xdeadbeef }) =
      (hex 12 0x3412000010020000efbeadde, 0) := by decide +kernel

/-- Vector B5. -/
theorem test_ptack :
    builtOf (after .ptack { State.reset with time := 0x1234, fSrc := 3, fDst := 2, fMask := 0x00000c }) =
      (hex 9 0x3412000003020c0000, 0) := by decide +kernel

/-- Vector B6. -/
theorem test_ptareq :
    builtOf (after .ptareq { State.reset with time := 0x1234, fSrc := 3, fDst := 2, fSignum := 1, fPresc := 10 }) =
      (hex 8 0x341200000302010a, 0) := by decide +kernel

/-- Vector B7. -/
theorem test_pttime :
    builtOf (after .pttime
      { identified 1 with time := 0x1234, fTime := 0x00012345, fNonce0 := 0xa4a3a2a1, fNonce1 := 0xa6a5 }) =
      (hex 14 0x45230100a1a2a3a4a5a601000000, 0) := by decide +kernel

/-- Vectors B8 and B10. -/
theorem test_ptskey :
    let s := { held State.reset bufBase (hex 16 0x000102030405060708090a0b0c0d0e0f) with
      tpos := 5, fDst := 2, fFwd := 3, fNonce0 := 0xa4a3a2a1, fNonce1 := 0xa6a5 }
    builtOf (after .ptskey s) = (hex 24 0x000102030405060708090a0b0c0d0e0f0203a1a2a3a4a5a6, 5) ∧
    (after .ptskey { s with fFwd := 64 }).statusWord = 0x00000406 := by decide +kernel

/-! ## Witnesses: for each statement with hypotheses, a state and operands that meet them, clause by clause -/

/-- An idle block the next event is `e` for. -/
def idleWith (e : HostEvent) : State := { State.reset with inputs := [e] }

/-- A block with CMAC in flight, not due yet, the next event `e`. -/
def busyWith (e : HostEvent) : State :=
  { State.reset with pending := 0x00000001, busy := true, latency := 1, inputs := [e] }

/-- The access of a window offset, a multiple of 4. -/
def accessAt (off : Nat) (op : BusOp) : HostAccess := { addr := Config.base + off, width := .word, op := op }

theorem accessAt_accepted (off : Nat) (op : BusOp) (h : off % 4 = 0) : (accessAt off op).accepted = true := by
  have := base_aligned
  simp only [HostAccess.accepted, accessAt, beq_self_eq_true, Bool.true_and, beq_iff_eq]
  omega

theorem windowOffset_accessAt (off : Nat) (op : BusOp) (h : off < 0x200) :
    windowOffset (accessAt off op).addr = some off := windowOffset_base off h

/-- What the statements about a host access assume of it, met at every aligned offset of the window. -/
theorem accessAt_ok (off : Nat) (op : BusOp) (h : off < 0x200) (h4 : off % 4 = 0) :
    windowOffset (accessAt off op).addr = some off ∧ (accessAt off op).accepted = true ∧ (accessAt off op).op = op :=
  ⟨windowOffset_accessAt off op h, accessAt_accepted off op h4, rfl⟩

theorem witness_LegalWordsNameCommandsOthersEndIllegal :
    (State.reset.withFetchWord 32 0x36).busy = true ∧ (State.reset.withFetchWord 32 0x36).latency = 0 ∧
    (State.reset.withFetchWord 32 0x36).pending = 0x00000036 ∧ (commandFields 0x00000036).legal = false :=
  ⟨rfl, rfl, rfl, rfl⟩

theorem witness_StepRunsTheDecodedCommand :
    (State.reset.withFetchWord 32 0x103).busy = true ∧ (State.reset.withFetchWord 32 0x103).latency = 0 ∧
    decode (State.reset.withFetchWord 32 0x103).pending = .ok .verifyW ∧ Instr.wf .verifyW = true :=
  ⟨rfl, rfl, rfl, rfl⟩

theorem witness_IssueTakesTheCommandWord :
    let a := accessAt 0x00C (.write 0xFFFFFFFF)
    (idleWith (.access a)).busy = false ∧ (idleWith (.access a)).inputs = [.access a] ∧
    windowOffset a.addr = some 0x00C ∧ a.accepted = true ∧ a.op = .write 0xFFFFFFFF :=
  ⟨rfl, rfl, accessAt_ok _ _ (by decide) (by decide)⟩

/-- One write for each clause: STATUS, CTRL with SRST, CTRL without it, CMD, and the last reserved offset. -/
theorem witness_WritesWhileBusy_clauses :
    ∀ p ∈ [(0x008, 0x00000042#32), (0x004, 0x00000001#32), (0x004, 0x00000002#32), (0x00C, 0x00000002#32),
        (0x1FC, 0xFFFFFFFF#32)],
      let a := accessAt p.1 (.write p.2)
      (busyWith (.access a)).busy = true ∧ (busyWith (.access a)).latency ≠ 0 ∧
      (busyWith (.access a)).inputs = [.access a] ∧
      windowOffset a.addr = some p.1 ∧ a.accepted = true ∧ a.op = .write p.2 := by
  intro p hp
  refine ⟨rfl, Nat.one_ne_zero, rfl, accessAt_ok _ _ ?_ ?_⟩ <;> fin_cases hp <;> decide

theorem witness_WritesWhileBusy_completion :
    let s := { State.reset.withFetchWord 32 0x00000200 with busyErr := true }
    step s = .next (s.retire .illegal) ∧ s.busy = true ∧ s.latency = 0 := ⟨rfl, rfl, rfl⟩

/-- An idle block with BUSYERR set, about to have it cleared by a write of STATUS. -/
def clearing : State := { idleWith (.access (accessAt 0x008 (.write 0x40))) with busyErr := true }

/-- BUSYERR falls in a step: an idle write of STATUS with bit 6 set. -/
theorem witness_WritesWhileBusy_cleared :
    step clearing = .next { State.reset with answer := .written } ∧ clearing.busyErr = true ∧
    State.reset.busyErr = false := by
  have h1 : step clearing = hostStep { clearing.tick with inputs := [] } (.access (accessAt 0x008 (.write 0x40))) := rfl
  refine ⟨?_, rfl, rfl⟩
  rw [h1]
  simp only [hostStep, windowOffset_accessAt 0x008 _ (by decide : 0x008 < 0x200)]
  simp only [State.windowAccess, accessAt_accepted 0x008 _ (by decide : 0x008 % 4 = 0), if_true]
  rfl

/-- No register stands at the first or the last reserved offset. -/
theorem reserved_edges (r : Reg) : 0x024 ≠ regOffset r ∧ 0x1FC ≠ regOffset r := by
  have none_at : ∀ off, regAt off = none → off ≠ regOffset r := by
    rintro off h rfl
    rw [regAt_regOffset] at h
    cases h
  exact ⟨none_at _ rfl, none_at _ rfl⟩

/-- One read for each clause: the exact registers, CMD, the last register and a reserved offset while busy; the first and
the last register and the first and the last reserved offset while idle. -/
theorem witness_ReadsWhileBusy :
    (∀ off ∈ [0x000, 0x004, 0x008, 0x00C, 0x15C, 0x1FC],
      let a := accessAt off .read
      (busyWith (.access a)).busy = true ∧ (busyWith (.access a)).latency ≠ 0 ∧
      (busyWith (.access a)).inputs = [.access a] ∧
      windowOffset a.addr = some off ∧ a.accepted = true ∧ a.op = .read) ∧
    (∀ off ∈ [0x000, 0x15C, 0x024, 0x1FC],
      let a := accessAt off .read
      (idleWith (.access a)).busy = false ∧ (idleWith (.access a)).inputs = [.access a] ∧
      windowOffset a.addr = some off ∧ a.accepted = true ∧ a.op = .read) ∧
    0x000 = regOffset .id ∧ 0x15C = regOffset (.reasm 7) ∧ ∀ r, 0x024 ≠ regOffset r ∧ 0x1FC ≠ regOffset r := by
  refine ⟨fun off h => ?_, fun off h => ?_, rfl, rfl, reserved_edges⟩
  · refine ⟨rfl, Nat.one_ne_zero, rfl, accessAt_ok _ _ ?_ ?_⟩ <;> fin_cases h <;> decide
  · refine ⟨rfl, rfl, accessAt_ok _ _ ?_ ?_⟩ <;> fin_cases h <;> decide

/-- A command in flight for two more steps, the host writing BUF0 and reading STATUS meanwhile. -/
theorem witness_CommandsCompleteOnTheRegistersLeftAtIssue :
    let s := { State.reset with busy := true, latency := 2, inputs := [wr (.buf 0) 1, rd .status, .resetInput] }
    s.busy = true ∧ s.done = false ∧ (∀ e ∈ s.inputs.take s.latency, harmless e) ∧
    (∀ e ∈ s.inputs.take s.latency, e ≠ .wait) ∧ decode s.pending = .ok .nop := by
  refine ⟨rfl, rfl, ?_, by decide, rfl⟩
  have h1 : harmless (wr (.buf 0) 1) :=
    ⟨0x100, windowOffset_reg (.buf 0), fun v _ _ h => by simp [regOffset] at h⟩
  have h2 : harmless (rd .status) := ⟨0x008, windowOffset_reg .status, fun v h => by simp at h⟩
  intro e he
  fin_cases he
  · exact h1
  · exact h2

/-- The same with a `wait` loop, which the completion finds still there. -/
theorem witness_CommandsCompleteOnTheRegistersLeftAtIssue_wait :
    let s := { State.reset with busy := true, latency := 2, inputs := [waitLine] }
    s.busy = true ∧ s.done = false ∧ (∀ e ∈ s.inputs.take s.latency, harmless e) ∧ decode s.pending = .ok .nop := by
  refine ⟨rfl, rfl, fun e he => ?_, rfl⟩
  rw [List.mem_singleton.1 he]
  trivial

/-- A `wait` on an idle block, and one while a command is in flight. -/
theorem witness_WaitPollsUntilTheBlockIsIdle :
    ((idleWith waitLine).busy = false ∧ (idleWith waitLine).inputs = [waitLine] ∧
      ((idleWith waitLine).readReg .status).getLsbD 0 = false) ∧
    ((busyWith waitLine).latency ≠ 0 ∧ (busyWith waitLine).inputs = [waitLine] ∧
      ((busyWith waitLine).readReg .status).getLsbD 0 = true) :=
  ⟨⟨rfl, rfl, rfl⟩, Nat.one_ne_zero, rfl, rfl⟩

/-- `do VERIFY.W` on the block after reset, another line after it. -/
theorem witness_DoRunsACommandToItsEnd :
    let s := { State.reset with inputs := doCommand .verifyW ++ [ackLine] }
    s.busy = false ∧ s.inputs = [wr .cmd 0x00000103, .wait, wr .status 0x00000042] := ⟨rfl, rfl⟩

/-- R86, `wait`: a read that shows BUSY = 1 leaves the loop where it is, one that shows BUSY = 0 ends it. -/
theorem test_wait :
    (stepped (busyWith .wait)).inputs = [.wait] ∧ (stepped (busyWith .wait)).answer = .data 0x00000001 ∧
    (stepped (idleWith .wait)).inputs = [] ∧ (stepped (idleWith .wait)).answer = .data 0 := ⟨rfl, rfl, rfl, rfl⟩

theorem witness_CompletionIsAFunctionOfTheRegisters :
    exec .sign State.reset = .next (State.reset.finish id (signBody Config.cipher State.reset)) := rfl

/-- A write of the first and the last register, and of the first and the last reserved offset. -/
theorem witness_IdleWritesReachTheirRegister :
    (∀ off ∈ [0x000, 0x15C, 0x024, 0x1FC],
      let a := accessAt off (.write 1)
      (idleWith (.access a)).busy = false ∧ (idleWith (.access a)).inputs = [.access a] ∧
      windowOffset a.addr = some off ∧ a.accepted = true ∧ a.op = .write 1) ∧
    0x000 = regOffset .id ∧ 0x15C = regOffset (.reasm 7) ∧
    ∀ r, 0x024 ≠ regOffset r ∧ 0x1FC ≠ regOffset r := by
  refine ⟨fun off h => ⟨rfl, rfl, accessAt_ok _ _ ?_ ?_⟩, rfl, rfl, reserved_edges⟩ <;> fin_cases h <;> decide

/-- The edges of each reserved range, and an offset on either side of one. -/
theorem witness_RegistersStandAtTheirOffsets :
    (∀ off ∈ [0x024, 0x03C, 0x078, 0x07C, 0x098, 0x09C, 0x0C0, 0x0FC, 0x160, 0x1FC],
      off < 0x200 ∧ off % 4 = 0 ∧ regAt off = none) ∧
    regAt 0x020 = some .tpos ∧ regAt 0x040 = some .fType ∧ regAt 0x0BC = some (.frameD 1) ∧
    regAt 0x100 = some (.buf 0) := by decide

theorem witness_RegistersStoreTheirDefinedBits :
    plainReadWrite .txid = true ∧ plainReadWrite (.buf 15) = true ∧ Reg.buf 14 ≠ Reg.buf 15 ∧ readOnly .id = true ∧
    readOnly (.reasm 7) = true ∧ Reg.key 5 = Reg.key (5 : Fin 6) := by decide

theorem witness_ReservedOffsetsAndBits :
    (∀ off ∈ [0x024, 0x03C, 0x078, 0x07C, 0x098, 0x09C, 0x0C0, 0x0FC, 0x160, 0x1FC],
      reservedOffset off = true ∧ off % 4 = 0) ∧ Reg.ctrl ≠ Reg.nodeCnt := by decide

theorem witness_NodeCountTakesOnlyLegalValues :
    (1 ≤ (1 : Word).toNat ∧ (1 : Word).toNat ≤ 64) ∧ (1 ≤ (64 : Word).toNat ∧ (64 : Word).toNat ≤ 64) ∧
    (0 : Word).toNat = 0 ∧ 64 < (65 : Word).toNat := by decide

theorem witness_ByteArraysPackLittleEndian : 0 < 4 ∧ 3 < 4 ∧ 0 < 2 ∧ 1 < 2 := by decide

/-- A narrow access of the window, and a 32-bit one at each kind of misalignment. -/
theorem witness_OtherAccessesEndInABusError :
    ∀ off ∈ [0x001, 0x002, 0x1FF],
      let a := accessAt off .read
      (idleWith (.access a)).busy = false ∧ (idleWith (.access a)).inputs = [.access a] ∧
      windowOffset a.addr = some off ∧ ¬ (a.width = .word ∧ a.addr % 4 = 0) := by
  intro off h
  refine ⟨rfl, rfl, windowOffset_accessAt off _ ?_, fun h4 => ?_⟩
  · fin_cases h <;> decide
  · have h5 : (Config.base + off) % 4 = 0 := h4.2
    have := base_aligned
    fin_cases h <;> omega

theorem witness_OtherAccessesEndInABusError_width :
    ∀ w ∈ [AccessWidth.byte, .half, .wider],
      let a : HostAccess := { addr := Config.base + 0x100, width := w, op := .write 1 }
      (busyWith (.access a)).latency ≠ 0 ∧ (busyWith (.access a)).inputs = [.access a] ∧
      windowOffset a.addr = some 0x100 ∧ ¬ (a.width = .word ∧ a.addr % 4 = 0) := by
  intro w hw
  refine ⟨Nat.one_ne_zero, rfl, windowOffset_base 0x100 (by decide), fun h => ?_⟩
  have h1 : w = .word := h.1
  subst h1
  exact absurd hw (by decide)

/-- The first address after the window. -/
theorem witness_AccessesOutsideTheWindowFault :
    let a := accessAt 0x200 .read
    (idleWith (.access a)).busy = false ∧ (idleWith (.access a)).inputs = [.access a] ∧ windowOffset a.addr = none := by
  refine ⟨rfl, rfl, ?_⟩
  have h : ¬ (accessAt 0x200 .read).addr / 0x200 = Config.baseIndex := by simp only [accessAt, Config.base]; omega
  rw [windowOffset, if_neg h]

/-- Two blocks with different keys, and a read of KEY0. -/
theorem witness_KeyIsNeverReadBack :
    (accessAt 0x080 .read).op = .read ∧ Memory.sameOutside State.reset.mem rfcKey.mem 0x080 24 ∧
    rfcKey.keyArr 24 ≠ State.reset.keyArr 24 := by
  refine ⟨rfl, fun b hb => ?_, by decide +kernel⟩
  refine Memory.read_writeBytes_out [] keyBase b (hex 16 0x2b7e151628aed2a6abf7158809cf4f3c) ?_
  simp only [hex, beBytes_length, keyBase]
  omega

theorem witness_StatusAndCtrlFields : (0x00000032 : Word).getLsbD 0 = false := rfl

theorem witness_WhoWritesTheStatusFields :
    exec .rclr State.reset = .next (after .rclr State.reset) ∧ isVerify .rclr = false ∧ isDecoder .rclr = false ∧
    exec .nop State.reset = .next (after .nop State.reset) ∧ Instr.nop ≠ .fragst ∧ Instr.nop ≠ .rclr :=
  ⟨rfl, rfl, rfl, rfl, by decide, by decide⟩

/-- A failing builder, a failing VERIFY and a failing decoder. -/
theorem witness_ErrorsCommitNothing :
    (after .ptskey { State.reset with fFwd := 64 }).errCode ≠ 0 ∧ (after .verify { State.reset with klen := 1 }).errCode ≠ 0 ∧
    (after .dectime State.reset).errCode ≠ 0 := by decide +kernel

theorem witness_ErrorsCommitNothing_next :
    exec .dectime State.reset = .next (after .dectime State.reset) := rfl

theorem witness_UnlistedRegistersAreKept :
    exec .fragst State.reset = .next (after .fragst State.reset) ∧ Reg.time ≠ .status ∧ mayWrite .fragst .time = false :=
  ⟨rfl, by decide, rfl⟩

theorem witness_InterruptFollowsDoneAndEnable :
    exec .nop State.reset = .next (after .nop State.reset) ∧
    completeIllegal State.reset = .next (State.reset.retire .illegal) ∧
    (2 : Word).getLsbD 1 = true ∧ (0 : Word).getLsbD 1 = false := ⟨rfl, rfl, rfl, rfl⟩

/-- The reset input, and CTRL with SRST, while a command is in flight. -/
theorem witness_EveryResetSourceResetsTheWholeBlock :
    let a := accessAt 0x004 (.write 0xFFFFFFFF)
    (busyWith .resetInput).latency ≠ 0 ∧ (busyWith .resetInput).inputs = [.resetInput] ∧
    (busyWith (.access a)).latency ≠ 0 ∧ (busyWith (.access a)).inputs = [.access a] ∧
    (0xFFFFFFFF : Word).getLsbD 0 = true ∧
    windowOffset a.addr = some 0x004 ∧ a.accepted = true ∧ a.op = .write 0xFFFFFFFF :=
  ⟨Nat.one_ne_zero, rfl, Nat.one_ne_zero, rfl, rfl, accessAt_ok _ _ (by decide) (by decide)⟩

theorem witness_ResetValuesOfEveryRegister : Reg.cmd ≠ .id ∧ Reg.cmd ≠ .nodeCnt := by decide

theorem witness_EveryStepKeepsTheInvariant : State.reset.Inv ∧ step State.reset = .next State.reset := by
  refine ⟨⟨by decide, by decide, by decide, by decide, by decide, by decide, by decide⟩, rfl⟩

/-- The smallest string with its top bit set, and the largest without. -/
theorem witness_DoublingShiftsAndXors :
    (hex 16 (2 ^ 127)).length = 16 ∧ 2 ^ 127 ≤ fromBE (hex 16 (2 ^ 127)) ∧
    (hex 16 (2 ^ 127 - 1)).length = 16 ∧ fromBE (hex 16 (2 ^ 127 - 1)) < 2 ^ 127 := by decide +kernel

/-- The word 0x00000100, and one with bit 9 set, in flight and due. -/
theorem witness_NopOnlyCompletes :
    ∀ w ∈ [0x100, 0x200],
      let s := State.reset.withFetchWord 32 w
      s.busy = true ∧ s.latency = 0 ∧ (s.pending = 0x00000100 ∨ s.pending.extractLsb' 9 23 ≠ 0) := by decide

/-- Messages of a complete last block, the empty message, and one byte more than a block. -/
theorem witness_CmacFollowsTheRfcSteps :
    ((hex 16 1).length ≠ 0 ∧ (hex 16 1).length % 16 = 0) ∧
    ¬ ((hex 0 0).length ≠ 0 ∧ (hex 0 0).length % 16 = 0) ∧
    ¬ ((hex 17 0).length ≠ 0 ∧ (hex 17 0).length % 16 = 0) := by decide

theorem witness_KeyWrapFollowsTheIndexedLoops :
    2 ≤ 2 ∧ (hex 16 1).length = 8 * 2 ∧ (hex 24 1).length = 8 * (2 + 1) := by decide

/-- The clauses of CMAC and SIGN, at KLEN 1, LEN 65 and LEN 64. -/
theorem witness_CmacWritesTheMac :
    ({ State.reset with klen := 1 } : State).klen ≠ 0 ∧
    (({ State.reset with len := 65 } : State).klen = 0 ∧ 64 < ({ State.reset with len := 65 } : State).len.toNat) ∧
    (({ State.reset with len := 64 } : State).klen = 0 ∧ ({ State.reset with len := 64 } : State).len.toNat ≤ 64) := by
  decide

theorem witness_SignWritesMacAndTag :
    ({ State.reset with klen := 3 } : State).klen ≠ 0 ∧
    (({ State.reset with len := 127 } : State).klen = 0 ∧ 64 < ({ State.reset with len := 127 } : State).len.toNat) ∧
    (State.reset.klen = 0 ∧ State.reset.len.toNat ≤ 64) := by decide

/-- The clauses of VERIFY: KEYLEN, BADLEN, a TPOS one past the last that fits, and the last that fits. -/
theorem witness_VerifyComparesTheTag :
    ({ State.reset with klen := 1 } : State).klen ≠ 0 ∧
    (64 < ({ State.reset with len := 65 } : State).len.toNat) ∧
    (let s := { State.reset with len := 64, tpos := 61 }
     s.klen = 0 ∧ s.len.toNat ≤ 64 ∧ s.len.toNat < s.tpos.toNat + 4) ∧
    (let s := { State.reset with len := 64, tpos := 60 }
     s.klen = 0 ∧ s.len.toNat ≤ 64 ∧ s.tpos.toNat + 4 ≤ s.len.toNat) := by decide

/-- Whatever the cipher, some block holds the tag of its message. -/
theorem witness_VerifyComparesTheTag_match (m : List Byte) :
    (cmacBytes (Config.cipher.enc State.reset.key128) m).take 4 =
      leBytes 4 (BitVec.ofNat 32
        (fromLE ((cmacBytes (Config.cipher.enc State.reset.key128) m).take 4))).toNat :=
  (leBytes_ofNat_fromLE _ (by simp [cmacBytes, blockBytes])).symm

theorem witness_VerifyAcceptsWhatSignMade :
    let s := { State.reset with len := 64 }
    s.klen = 0 ∧ s.len.toNat ≤ 64 := by decide

theorem witness_ReplayWindowIsOneTimeUnit :
    let s := { State.reset with len := 4 }
    s.klen = 0 ∧ s.len.toNat ≤ 64 ∧ s.tpos.toNat + 4 ≤ s.len.toNat ∧
    exec .verifyW s = .next (s.finish State.clearMatch (verifyWBody Config.cipher s)) :=
  ⟨rfl, by decide, by decide, rfl⟩

theorem witness_GensubWritesTheSubkeys :
    ({ State.reset with klen := 1 } : State).klen ≠ 0 ∧ State.reset.klen = 0 := by decide

theorem witness_WrapReplacesTheKeyData :
    2 ≤ ({ State.reset with klen := 2 } : State).klen.toNat ∧
    (∀ n ∈ [15, 20, 57],
      let s := { State.reset with klen := 1, len := BitVec.ofNat 7 n }
      s.klen.toNat ≤ 1 ∧ ¬ (16 ≤ s.len.toNat ∧ s.len.toNat ≤ 56 ∧ s.len.toNat % 8 = 0)) ∧
    (∀ n ∈ [16, 56],
      let s := { State.reset with klen := 1, len := BitVec.ofNat 7 n }
      s.klen.toNat ≤ 1 ∧ 16 ≤ s.len.toNat ∧ s.len.toNat ≤ 56 ∧ s.len.toNat % 8 = 0) := by decide

theorem witness_UnwrapReplacesTheCiphertext :
    2 ≤ ({ State.reset with klen := 3 } : State).klen.toNat ∧
    (∀ n ∈ [23, 28, 65],
      let s := { State.reset with klen := 1, len := BitVec.ofNat 7 n }
      s.klen.toNat ≤ 1 ∧ ¬ (24 ≤ s.len.toNat ∧ s.len.toNat ≤ 64 ∧ s.len.toNat % 8 = 0)) ∧
    (∀ n ∈ [24, 64],
      let s := { State.reset with klen := 1, len := BitVec.ofNat 7 n }
      s.klen.toNat ≤ 1 ∧ 24 ≤ s.len.toNat ∧ s.len.toNat ≤ 64 ∧ s.len.toNat % 8 = 0) := by decide

/-- What the wrap algorithm makes of three zero registers, started from the value `a`, under the all-zero key. -/
def wrappedFrom (a : Semiblock) : List Byte :=
  let out := wrapPasses (Config.cipher.enc State.reset.key128) a [0, 0, 0] 6
  semiBytes out.1 ++ semisBytes out.2

theorem wrappedFrom_length (a : Semiblock) : (wrappedFrom a).length = 32 := by simp [wrappedFrom]

/-- A 32-byte string in a byte array reads back, and leaves the key as it was. -/
theorem held_reads (base : Nat) (bs : List Byte) (hl : bs.length = 32) (s : State) (hb : 0x098 ≤ base) :
    (held s base bs).mem.readBytes base 32 = bs ∧ (held s base bs).key128 = s.key128 := by
  have h1 := Memory.readBytes_writeBytes_same s.mem base bs
  rw [hl] at h1
  refine ⟨h1, ?_⟩
  have h2 : (held s base bs).keyArr 16 = s.keyArr 16 :=
    Memory.readBytes_writeBytes_out _ _ _ _ _ (.inl (by simp [keyBase]; omega))
  simp [State.key128, h2]

/-- Whatever the cipher, one ciphertext of UNWRAP verifies and another does not. -/
theorem witness_UnwrapReplacesTheCiphertext_integrity :
    let s := fun a : Semiblock => { held State.reset bufBase (wrappedFrom a) with len := 32 }
    let out := fun a => keyUnwrap (Config.cipher.dec (s a).key128) ((s a).bufBytes (s a).len.toNat)
    (s 0).klen = 0 ∧ (s 0).len.toNat = 32 ∧ (out wrapConstant).1 = true ∧ (out 0).1 = false := by
  have key : ∀ a : Semiblock,
      keyUnwrap (Config.cipher.dec ({ held State.reset bufBase (wrappedFrom a) with len := 32 } : State).key128)
        (({ held State.reset bufBase (wrappedFrom a) with len := 32 } : State).bufBytes 32) =
        (a == wrapConstant, semisBytes [0, 0, 0]) := by
    intro a
    have h := held_reads bufBase (wrappedFrom a) (wrappedFrom_length a) State.reset (by decide)
    have h2 : ({ held State.reset bufBase (wrappedFrom a) with len := 32 } : State).key128 = State.reset.key128 := h.2
    have h1 : ({ held State.reset bufBase (wrappedFrom a) with len := 32 } : State).bufBytes 32 = wrappedFrom a := h.1
    rw [h1, h2]
    exact keyUnwrap_of_start _ _ (cipher_dec_enc _) a [0, 0, 0]
  refine ⟨rfl, rfl, ?_, ?_⟩
  · exact (congrArg Prod.fst (key wrapConstant)).trans (by decide)
  · exact (congrArg Prod.fst (key 0)).trans (by decide)

theorem witness_UnwraprUnwrapsTheReassembledKey :
    2 ≤ ({ State.reset with klen := 2 } : State).klen.toNat ∧
    (State.reset.klen.toNat ≤ 1 ∧ ({ State.reset with rmap := 0x3E } : State).rmap ≠ 0x3F) ∧
    ({ State.reset with rmap := 0x3F } : State).rmap = 0x3F := by decide

/-- Whatever the cipher, one reassembled key verifies and another does not. -/
theorem witness_UnwraprUnwrapsTheReassembledKey_integrity :
    let s := fun a : Semiblock => { held State.reset reasmBase (wrappedFrom a) with rmap := 0x3F }
    let out := fun a => keyUnwrap (Config.cipher.dec (s a).key128) (s a).reasmBytes
    (s 0).klen = 0 ∧ (s 0).rmap = 0x3F ∧ (out wrapConstant).1 = true ∧ (out 0).1 = false := by
  have key : ∀ a : Semiblock,
      keyUnwrap (Config.cipher.dec ({ held State.reset reasmBase (wrappedFrom a) with rmap := 0x3F } : State).key128)
        ({ held State.reset reasmBase (wrappedFrom a) with rmap := 0x3F } : State).reasmBytes =
        (a == wrapConstant, semisBytes [0, 0, 0]) := by
    intro a
    have h := held_reads reasmBase (wrappedFrom a) (wrappedFrom_length a) State.reset (by decide)
    have h2 : ({ held State.reset reasmBase (wrappedFrom a) with rmap := 0x3F } : State).key128 = State.reset.key128 :=
      h.2
    have h1 : ({ held State.reset reasmBase (wrappedFrom a) with rmap := 0x3F } : State).reasmBytes = wrappedFrom a :=
      h.1
    rw [h1, h2]
    exact keyUnwrap_of_start _ _ (cipher_dec_enc _) a [0, 0, 0]
  refine ⟨rfl, rfl, ?_, ?_⟩
  · exact (congrArg Prod.fst (key wrapConstant)).trans (by decide)
  · exact (congrArg Prod.fst (key 0)).trans (by decide)

theorem witness_UnwrapUndoesWrap :
    ∀ n ∈ [16, 56],
      let s := { State.reset with klen := 1, len := BitVec.ofNat 7 n }
      s.klen.toNat ≤ 1 ∧ 16 ≤ s.len.toNat ∧ s.len.toNat ≤ 56 ∧ s.len.toNat % 8 = 0 := by decide

/-- The largest NodeId below NODECNT, and the first that is not. -/
theorem witness_CryptFrameEncodersEmitTheirFormat :
    (let s := { State.reset with fDst := 63, fFwd := 63 }
     s.fDst.toNat < s.nodeCnt.toNat ∧ s.fFwd.toNat < s.nodeCnt.toNat) ∧
    (let s := { State.reset with fDst := 64 }
     ¬ s.fDst.toNat < s.nodeCnt.toNat) ∧
    (let s := { State.reset with fFwd := 64 }
     s.fDst.toNat < s.nodeCnt.toNat ∧ ¬ s.fFwd.toNat < s.nodeCnt.toNat) := by decide

theorem witness_FragmentEncoderSplitsTheWrappedKey :
    (State.reset.len ≠ 32) ∧
    (let s := { State.reset with len := 32, fDst := 64 }
     s.len = 32 ∧ s.nodeCnt.toNat ≤ s.fDst.toNat) ∧
    (∀ p ∈ [(0x60, 6), (0x4F, 4), (0x50, 5)],
      let s := { State.reset with len := 32, fDst := 63, fFrag := BitVec.ofNat 8 p.1 }
      s.len = 32 ∧ s.fDst.toNat < s.nodeCnt.toNat ∧ s.fFrag.toNat / 16 = p.2) := by decide

/-- One frame for each format and each value of the flag it admits, and two of no format. -/
theorem witness_DeccryptRecognisesTheFormats :
    (withDlc 2 8 0x3F3F000000000000).frameFits false .reqchal ∧ (withDlc 2 8 0x4003000000000000).frameFits true .chal ∧
    (withDlc 8 8 0x4003a1a2a3a4a5a6).frameFits false .chalNonce ∧
    (withDlc 8 8 0x8246202122232425).frameFits true .frag ∧ (withDlc 4 8 0x82523e3f00000000).frameFits true .frag ∧
    (withDlc 8 8 0x820c00000857fe1c).frameFits false .ack ∧ (withDlc 8 8 0xc30137000857fe1c).frameFits true .sig16 ∧
    (withDlc 3 8 0xc2010a0000000000).frameFits false .areq ∧ (withDlc 7 8 0xc2010a0857fe1c00).frameFits true .areqMac := by
  unfold State.frameFits State.nodeBelow
  decide +kernel

theorem witness_DeccryptRecognisesTheFormats_malformed (k : Bool) (f : Kind) :
    ¬ (withDlc 9 8 0xc30137000857fe1c).frameFits k f ∧ ¬ State.reset.frameFits k f := by
  unfold State.frameFits State.nodeBelow
  cases k <;> cases f <;> decide +kernel

theorem witness_IdentifierFrameDecodersTakeTheirLengths :
    (withDlc 8 0 0).frameDlc = 8 ∧ (withDlc 4 0 0).frameDlc = 4 ∧
    ((withDlc 9 0 0).frameDlc ≠ 8 ∧ (withDlc 9 0 0).frameDlc ≠ 4) := by decide

theorem witness_FragstStoresTheFragment :
    (withDlc 8 8 0x8236323334353637).frameFits true .frag ∧ ¬ (withDlc 3 8 0x82523e0000000000).frameFits true .frag := by
  unfold State.frameFits State.nodeBelow
  decide +kernel

/-- Each encoder succeeds on the reset block, and its own frame is what the decoder is given. -/
theorem witness_DecodersReadBackEncodedFrames :
    ∀ i ∈ [Instr.encrq, .encch, .encchN, .encack, .encsig16, .encareq, .encareqM, .encsig32, .encplain, .enctime,
        .enctimeM],
      (after i State.reset).errCode = 0 ∧ (after i State.reset).nodeCnt = State.reset.nodeCnt := by decide +kernel

theorem witness_DecodersReadBackEncodedFrames_next :
    State.reset.Inv ∧ exec .encrq State.reset = .next (after .encrq State.reset) ∧
    exec .enctimeM State.reset = .next (after .enctimeM State.reset) :=
  ⟨witness_EveryStepKeepsTheInvariant.1, rfl, rfl⟩

theorem witness_FragmentOrderDoesNotMatter :
    (hex 32 7).length = 32 ∧ (63#6).toNat < State.reset.nodeCnt.toNat ∧ [3, 0, 5, 1, 4, 2].Perm [0, 1, 2, 3, 4, 5] := by
  decide +kernel

/-- Two blocks whose keys agree in the 16 bytes KLEN = 0 uses and differ in the last. -/
theorem witness_DeliveredKeyIsRecovered :
    let s := { kek16 with len := 24 }
    let r := held kek16 0x090 [1]
    s.klen.toNat ≤ 1 ∧ s.len = 24 ∧ exec .wrap s = .next (s.finish id (wrapBody Config.cipher s)) ∧
    r.klen = s.klen ∧ r.keyArr (if s.klen = 0 then 16 else 24) = s.keyArr (if s.klen = 0 then 16 else 24) ∧
    r.keyArr 24 ≠ s.keyArr 24 ∧ (2#6).toNat < r.nodeCnt.toNat ∧ [5, 2, 0, 4, 1, 3].Perm [0, 1, 2, 3, 4, 5] :=
  ⟨by decide, rfl, rfl, rfl, by decide +kernel, by decide +kernel, by decide, by decide⟩

/-- The same with a 24-byte key, and a fragment addressed below the wrapping block's NODECNT. -/
theorem witness_DeliveredKeyIsRecovered_24 :
    let s := { kek24 with len := 24 }
    s.klen.toNat ≤ 1 ∧ s.len = 24 ∧ exec .wrap s = .next (s.finish id (wrapBody Config.cipher s)) ∧
    kek24.klen = s.klen ∧
    kek24.keyArr (if s.klen = 0 then 16 else 24) = s.keyArr (if s.klen = 0 then 16 else 24) ∧ 5 < 6 ∧
    (63#6).toNat < s.nodeCnt.toNat ∧ (63#6).toNat < kek24.nodeCnt.toNat ∧
    [0, 1, 2, 3, 4, 5].Perm [0, 1, 2, 3, 4, 5] :=
  ⟨by decide, rfl, rfl, rfl, rfl, by decide, by decide, by decide, List.Perm.refl _⟩

theorem witness_NodePlaintextBuildersBindTheirFields :
    (let s := { State.reset with fSrc := 63, fDst := 63 }
     s.fSrc.toNat < s.nodeCnt.toNat ∧ s.fDst.toNat < s.nodeCnt.toNat) ∧
    (let s := { State.reset with fSrc := 64 }
     ¬ (s.fSrc.toNat < s.nodeCnt.toNat ∧ s.fDst.toNat < s.nodeCnt.toNat)) := by decide

theorem witness_PtskeyCompletesTheWrapPlaintext :
    (let s := { State.reset with fFwd := 63, fDst := 63 }
     s.fDst.toNat < s.nodeCnt.toNat ∧ s.fFwd.toNat < s.nodeCnt.toNat) ∧
    (let s := { State.reset with fFwd := 64 }
     ¬ (s.fDst.toNat < s.nodeCnt.toNat ∧ s.fFwd.toNat < s.nodeCnt.toNat)) := by decide

/-- Both key lengths of `wrkey`, the nonce's, and the shortest, a partial and the longest string of `wrbuf`. -/
theorem witness_PseudoInstructionsLeaveWhatTheyName :
    State.reset.busy = false ∧ (0x00000032 : Word).getLsbD 0 = false ∧ (hex 16 1).length = 16 ∧
    (hex 24 1).length = 24 ∧ (hex 6 1).length = 6 ∧ (hex 8 1).length ≤ 8 ∧ (hex 0 0).length ≤ 64 ∧
    (hex 5 1).length ≤ 64 ∧ (hex 64 1).length ≤ 64 := by decide

/-- R86, `wrbuf` of 5 bytes: two words, the second padded with zeros, then LEN. -/
theorem test_wrbuf :
    wrbuf (hex 5 0x0102030405) = some [wr (.buf 0) 0x04030201, wr (.buf 1) 0x00000005, wr .len 5] ∧
    wrbuf (zeros 65) = none := ⟨rfl, rfl⟩

end Sys2Proof.Tests
end

section
/-! The window of the bus (R2): which addresses it holds, and what an access to any other address does (log entry 7). -/

namespace Sys2Proof.Machine

/-- The window is the 0x200 addresses from BASE, an offset being the address less BASE (R2). -/
theorem windowOffset_eq_some_iff (addr off : Nat) :
    windowOffset addr = some off ↔ off < 0x200 ∧ addr = Config.base + off := by
  constructor
  · intro h
    unfold windowOffset at h
    split at h
    next hpage =>
      cases h
      unfold Config.base
      omega
    next => cases h
  · rintro ⟨hlt, rfl⟩
    exact windowOffset_base off hlt

/-- The event of an access outside the window is the fault `outsideWindow`. -/
theorem hostStep_outsideWindow (s : State) {a : HostAccess} (h : windowOffset a.addr = none) :
    hostStep s (.access a) = .fault (.outsideWindow a.addr) := by
  simp [hostStep, h]

/-- Settles O19: the step performs the access, no completion being due, and an access outside the window faults. -/
theorem accessesOutsideTheWindowFault : Obligations.AccessesOutsideTheWindowFault := by
  refine ⟨windowOffset_eq_some_iff, fun s a rest hdue hin hout => ?_⟩
  have hnot : ¬ (s.busy = true ∧ s.latency = 0) := fun ⟨hb, hl⟩ => hdue hb hl
  rw [step_host hnot hin, hostStep_outsideWindow _ hout]

end Sys2Proof.Machine
end

section
/-! The packing of byte arrays in words (R5): byte `k` of a word is its bits `[8k+7:8k]`, in the little-endian bytes of
an integer, and so in the words of the byte-array registers, in TAG and in the nonce. -/

namespace Sys2Proof.Machine

/-- Byte `k` of the little-endian bytes of a bit vector is its bits `[8k+7:8k]` (R4, R5). -/
theorem byteAt_leBytes_toNat {w : Nat} (v : BitVec w) {n k : Nat} (h : k < n) :
    byteAt (leBytes n v.toNat) k = v.extractLsb' (8 * k) 8 := by
  rw [byteAt, leBytes_getD n v.toNat k h]
  apply BitVec.eq_of_toNat_eq
  rw [BitVec.toNat_ofNat, BitVec.extractLsb'_toNat, Nat.shiftRight_eq_div_pow, Nat.pow_mul]

/-- The little-endian bytes of a word of a byte array are the four bytes from its offset (R5). -/
theorem leBytes_readWord (m : Memory) (off : Nat) : leBytes 4 (m.readWord off).toNat = m.readBytes off 4 :=
  leBytes_ofNat_fromLE _ (m.readBytes_length off 4)

/-- Byte `k` of a word of a byte array, as it is read (R5). -/
theorem extractLsb'_readWord (m : Memory) (off : Nat) {k : Nat} (h : k < 4) :
    (m.readWord off).extractLsb' (8 * k) 8 = m.read (off + k) := by
  rw [← byteAt_leBytes_toNat _ h, leBytes_readWord, byteAt, Memory.readBytes_getD m off 4 k h]

/-- Byte `k` of a word of a byte array, after the word is written (R5). -/
theorem read_writeWord (m : Memory) (off : Nat) (v : Word) {k : Nat} (h : k < 4) :
    (m.writeWord off v).read (off + k) = v.extractLsb' (8 * k) 8 := by
  have hin : off ≤ off + k ∧ off + k < off + (leBytes 4 v.toNat).length := by
    rw [leBytes_length]
    omega
  rw [Memory.writeWord, Memory.read_writeBytes, if_pos hin, Nat.add_sub_cancel_left]
  exact byteAt_leBytes_toNat v h

/-- The first four bytes of the nonce are those of F_NONCE0 (R46). -/
theorem byteAt_nonce_low (s : State) {k : Nat} (h : k < 4) :
    byteAt s.nonce k = s.fNonce0.extractLsb' (8 * k) 8 := by
  rw [← byteAt_leBytes_toNat s.fNonce0 h]
  exact List.getD_append _ _ _ _ (by simpa using h)

/-- The last two bytes of the nonce are those of F_NONCE1 (R46). -/
theorem byteAt_nonce_high (s : State) {k : Nat} (h : k < 2) :
    byteAt s.nonce (4 + k) = s.fNonce1.extractLsb' (8 * k) 8 := by
  rw [← byteAt_leBytes_toNat s.fNonce1 h, byteAt, State.nonce, List.getD_append_right _ _ _ _ (by simp)]
  simp [byteAt]

/-- Settles O17, by the packing of one word; where each array's words stand is the register map. -/
theorem byteArraysPackLittleEndian : Obligations.ByteArraysPackLittleEndian :=
  ⟨fun m off _ hk => extractLsb'_readWord m off hk, fun m off _ v hk => read_writeWord m off v hk,
    fun s => ⟨fun _ => rfl, fun _ => rfl, fun _ => rfl, fun _ => rfl, fun _ _ => rfl, fun _ _ => rfl, fun _ _ => rfl,
      fun _ hk => byteAt_leBytes_toNat s.tag hk, fun _ hk => byteAt_nonce_low s hk,
      fun _ hk => byteAt_nonce_high s hk⟩⟩

end Sys2Proof.Machine
end

section
/-! The latency of a command in flight (R3, R115, R118): each step of it performs at most one harmless event, which
leaves everything of the block but BUSYERR as it is, and the next step is the completion. -/

namespace Sys2Proof.Machine

/-- `t` is the machine `s` with `n` steps of the latency left: nothing of the block but BUSYERR has changed. -/
def State.Awaits (s t : State) (n : Nat) : Prop :=
  ∃ be ins dr ans, t = { s with busyErr := be, inputs := ins, latency := n, draws := dr, answer := ans }

section
variable {s t u : State} {m n : Nat}

theorem State.Awaits.busy (h : s.Awaits t n) : t.busy = s.busy := by
  obtain ⟨_, _, _, _, rfl⟩ := h
  rfl

theorem State.Awaits.done (h : s.Awaits t n) : t.done = s.done := by
  obtain ⟨_, _, _, _, rfl⟩ := h
  rfl

theorem State.Awaits.pending (h : s.Awaits t n) : t.pending = s.pending := by
  obtain ⟨_, _, _, _, rfl⟩ := h
  rfl

theorem State.Awaits.latency (h : s.Awaits t n) : t.latency = n := by
  obtain ⟨_, _, _, _, rfl⟩ := h
  rfl

theorem State.Awaits.refl (s : State) : s.Awaits s s.latency := ⟨_, _, _, _, rfl⟩

theorem State.Awaits.trans (h : s.Awaits t m) (h' : t.Awaits u n) : s.Awaits u n := by
  obtain ⟨_, _, _, _, rfl⟩ := h
  obtain ⟨_, _, _, _, rfl⟩ := h'
  exact ⟨_, _, _, _, rfl⟩

/-- The frame of the latency as one equation. -/
theorem State.Awaits.eq (h : s.Awaits t n) :
    t = { s with busyErr := t.busyErr, inputs := t.inputs, latency := n, draws := t.draws, answer := t.answer } := by
  obtain ⟨_, _, _, _, rfl⟩ := h
  rfl

end

/-- While DONE is 0 a write of STATUS can only clear BUSYERR (R23). -/
theorem writeStatus_of_not_done {s : State} (v : Word) (hd : s.done = false) :
    s.writeStatus v = { s with busyErr := s.busyErr && !v.getLsbD 6 } := by
  simp [State.writeStatus, hd]

/-- A write during the latency that is no reset is lost, but for BUSYERR: DONE is already 0 (R118). -/
theorem writeBusy_of_no_reset {s : State} {off : Nat} {v : Word} (hd : s.done = false)
    (hsrst : off = regOffset .ctrl → v.getLsbD 0 = false) :
    ∃ be, s.writeBusy off v = { s with busyErr := be } := by
  rcases writeBusy_cases s off v with ⟨-, h⟩ | ⟨⟨hoff, hv⟩, -⟩ | ⟨-, h⟩
  · exact ⟨_, h.trans (writeStatus_of_not_done v hd)⟩
  · rw [hsrst hoff] at hv
    cases hv
  · exact ⟨true, h⟩

/-- An access of the window during the latency that is no reset changes nothing of the block but BUSYERR. -/
theorem windowAccess_of_no_reset {s : State} {a : HostAccess} {off : Nat} (hb : s.busy = true) (hd : s.done = false)
    (hsrst : ∀ v, a.op = .write v → a.accepted = true → off = regOffset .ctrl → v.getLsbD 0 = false) :
    ∃ be dr ans, s.windowAccess a off = { s with busyErr := be, draws := dr, answer := ans } := by
  rcases windowAccess_cases s a off with ⟨-, h⟩ | ⟨-, -, h⟩ | ⟨v, hacc, hop, h⟩
  · exact ⟨_, _, _, h⟩
  · rcases busRead_cases s off with ⟨-, hr⟩ | ⟨-, hr⟩ <;> exact ⟨_, _, _, h.trans hr⟩
  · obtain ⟨be, hw⟩ := writeBusy_of_no_reset hd (hsrst v hop hacc)
    rw [h, State.busWrite, if_pos hb, hw]
    exact ⟨_, _, _, rfl⟩

/-- A harmless event during the latency answers a next state and changes nothing of the block but BUSYERR; only a `wait`
loop puts itself back before what the host does next (R86). -/
theorem hostStep_of_harmless {s : State} {e : HostEvent} (hb : s.busy = true) (hd : s.done = false)
    (he : harmless e) :
    ∃ t, hostStep s e = .next t ∧ s.Awaits t s.latency ∧
      (t.inputs = s.inputs ∨ (e = .wait ∧ t.inputs = .wait :: s.inputs)) := by
  cases e with
  | resetInput => exact he.elim
  | wait =>
    refine ⟨_, rfl, ?_⟩
    rw [State.waitRound_eq, if_pos hb]
    exact ⟨⟨_, _, _, _, rfl⟩, .inr ⟨rfl, rfl⟩⟩
  | access a =>
    obtain ⟨off, hoff, hsrst⟩ := he
    obtain ⟨be, dr, ans, hw⟩ := windowAccess_of_no_reset hb hd hsrst
    refine ⟨_, by simp only [hostStep, hoff]; rfl, ?_⟩
    rw [hw]
    exact ⟨⟨_, _, _, _, rfl⟩, .inl rfl⟩

/-- One step of the latency: one less is left, and the host's next event, if any, is performed. -/
theorem step_of_latency {s : State} {n : Nat} (hb : s.busy = true) (hd : s.done = false) (hl : s.latency = n + 1)
    (hh : ∀ e ∈ s.inputs.head?, harmless e) :
    ∃ t, step s = .next t ∧ s.Awaits t n ∧
      (t.inputs = s.inputs.tail ∨ (s.inputs.head? = some .wait ∧ t.inputs = s.inputs)) := by
  have hdue : ¬ (s.busy = true ∧ s.latency = 0) := by omega
  have htick : ∀ rest, s.Awaits { s.tick with inputs := rest } n := fun rest => by
    obtain rfl : s.latency - 1 = n := by omega
    exact ⟨_, _, _, _, rfl⟩
  cases hin : s.inputs with
  | nil => exact ⟨s.tick, by simp [step, hl, hin], htick s.inputs, .inl hin⟩
  | cons e rest =>
    obtain ⟨t, hstep, ht, hins⟩ :=
      hostStep_of_harmless (s := { s.tick with inputs := rest }) hb hd (hh e (by simp [hin]))
    refine ⟨t, ?_, (htick rest).latency ▸ (htick rest).trans ht, ?_⟩
    · rw [step_host hdue hin, hstep]
    · rcases hins with hins | ⟨rfl, hins⟩
      · exact .inl hins
      · exact .inr ⟨rfl, hins⟩

/-- The whole latency under harmless events, by induction on the steps left. -/
theorem run_latency (n : Nat) {s : State} (hb : s.busy = true) (hd : s.done = false) (hl : s.latency = n)
    (hh : ∀ e ∈ s.inputs.take n, harmless e) :
    ∃ u, Sys2Proof.core.run n s = .next u ∧ s.Awaits u 0 ∧ u.inputs <:+ s.inputs ∧
      ((∀ e ∈ s.inputs.take n, e ≠ .wait) → u.inputs = s.inputs.drop n) := by
  induction n generalizing s with
  | zero => exact ⟨s, rfl, hl ▸ State.Awaits.refl s, List.suffix_refl _, fun _ => rfl⟩
  | succ n ih =>
    have hhead : ∀ e ∈ s.inputs.head?, e ∈ s.inputs.take (n + 1) := by
      cases s.inputs <;> simp
    have htail : ∀ e ∈ s.inputs.tail.take n, e ∈ s.inputs.take (n + 1) := by
      cases s.inputs <;> simp +contextual
    obtain ⟨t, hstep, ht, hins⟩ := step_of_latency hb hd hl fun e he => hh e (hhead e he)
    have htake : ∀ e ∈ t.inputs.take n, e ∈ s.inputs.take (n + 1) := by
      rcases hins with hins | ⟨-, hins⟩ <;> rw [hins]
      · exact htail
      · exact fun e he => List.take_subset_take_left _ (Nat.le_succ n) he
    have hsuffix : t.inputs <:+ s.inputs := by
      rcases hins with hins | ⟨-, hins⟩ <;> rw [hins]
      exact List.tail_suffix _
    obtain ⟨u, hrun, hu, husuffix, hdrop⟩ :=
      ih (ht.busy.trans hb) (ht.done.trans hd) ht.latency fun e he => hh e (htake e he)
    refine ⟨u, by rw [run_succ, hstep]; exact hrun, ht.trans hu, husuffix.trans hsuffix, fun hw => ?_⟩
    rcases hins with hins | ⟨hwait, -⟩
    · rw [hdrop fun e he => hw e (htake e he), hins, List.drop_tail]
    · exact absurd rfl (hw .wait (hhead .wait hwait))

/-- A run that answers a next state can be continued by one step. -/
theorem run_succ_of_run {k : Nat} {s u : State} (h : Sys2Proof.core.run k s = .next u) :
    Sys2Proof.core.run (k + 1) s = step u := by
  induction k generalizing s with
  | zero =>
    obtain rfl : s = u := Host.Outcome.next.inj h
    rw [run_succ]
    cases hs : step s <;> rfl
  | succ k ih =>
    rw [run_succ] at h ⊢
    cases hs : step s with
    | next t => rw [hs] at h; exact ih h
    | fault r => rw [hs] at h; cases h
    | refused r => rw [hs] at h; cases h

/-- Every command answers a next state in every state: each meaning is a completion step (R112). -/
theorem exists_exec_eq_next (i : Instr) (s : State) : ∃ t, exec i s = .next t := by
  cases i <;> exact ⟨_, rfl⟩

/-- The step of a command that is due is its meaning (R112). -/
theorem step_of_due {s : State} {i : Instr} (hb : s.busy = true) (hl : s.latency = 0)
    (hi : decode s.pending = .ok i) : step s = exec i s := by
  simp [step, completionStep, hb, hl, hi]

/-- Settles O8: the latency passes by `run_latency`, and the command, whose word is still PENDING, is then due. -/
theorem commandsCompleteOnTheRegistersLeftAtIssue : Obligations.CommandsCompleteOnTheRegistersLeftAtIssue := by
  intro s hb hd hh
  obtain ⟨u, hrun, hu, hsuffix, hdrop⟩ := run_latency s.latency hb hd rfl hh
  refine ⟨u, hrun, hu.eq, hsuffix, hdrop, fun i hi => ?_⟩
  obtain ⟨t, ht⟩ := exists_exec_eq_next i u
  have hdue : step u = exec i u := step_of_due (hu.busy.trans hb) hu.latency (hu.pending ▸ hi)
  exact ⟨t, ht, (run_succ_of_run hrun).trans (hdue.trans ht)⟩

end Sys2Proof.Machine
end

section
/-! WRAP and UNWRAP (R141, R142): what each makes of a state it accepts, under any cipher, and that UNWRAP undoes
WRAP. -/

namespace Sys2Proof.Machine

@[simp] theorem State.message_length (s : State) : s.message.length = s.len.toNat := Memory.readBytes_length _ _ _

@[simp] theorem State.retire_bufBytes (s : State) (e : ErrorCode) (n : Nat) :
    (s.retire e).bufBytes n = s.bufBytes n := rfl

@[simp] theorem State.retire_message (s : State) (e : ErrorCode) : (s.retire e).message = s.message := rfl

@[simp] theorem State.retire_kwKey (s : State) (e : ErrorCode) : (s.retire e).kwKey = s.kwKey := rfl

/-- The completion step of a body that succeeds (R113). -/
theorem complete_ok {s t : State} {onError : State → State} {body : Except ErrorCode State} (h : body = .ok t) :
    complete s onError body = .next (t.retire .ok) := by
  rw [h]
  rfl

/-- `BUF[0..|bs|) <- bs` and `LEN <- n`: what a successful WRAP or UNWRAP writes (R141, R142). -/
def State.loadBuf (s : State) (bs : List Byte) (n : BitVec 7) : State := { s.writeBuf 0 bs with len := n }

@[simp] theorem State.loadBuf_len (s : State) (bs : List Byte) (n : BitVec 7) : (s.loadBuf bs n).len = n := rfl

@[simp] theorem State.loadBuf_klen (s : State) (bs : List Byte) (n : BitVec 7) : (s.loadBuf bs n).klen = s.klen := rfl

/-- The bytes just put into BUF read back. -/
theorem State.loadBuf_bufBytes (s : State) {bs : List Byte} (n : BitVec 7) {l : Nat} (h : bs.length = l) :
    (s.loadBuf bs n).bufBytes l = bs := by
  rw [← h]
  exact Memory.readBytes_writeBytes_same _ _ _

/-- The bytes just put into BUF are the message when LEN is their number. -/
theorem State.loadBuf_message (s : State) {bs : List Byte} {n : BitVec 7} (h : bs.length = n.toNat) :
    (s.loadBuf bs n).message = bs :=
  s.loadBuf_bufBytes n h

/-- A write of BUF leaves KEY, which lies below it. -/
@[simp] theorem State.loadBuf_keyArr (s : State) (bs : List Byte) (n : BitVec 7) {k : Nat} (hk : k ≤ 24) :
    (s.loadBuf bs n).keyArr k = s.keyArr k :=
  Memory.readBytes_writeBytes_out _ _ _ _ _ (.inl (by simp only [keyBase, bufBase]; omega))

/-- A write of BUF leaves the key of key wrap. -/
@[simp] theorem State.loadBuf_kwKey (s : State) (bs : List Byte) (n : BitVec 7) :
    (s.loadBuf bs n).kwKey = s.kwKey := by
  simp [State.kwKey, State.key128, State.key192]

/-- KLEN 0 and 1 pass the key check of key wrap (R130). -/
theorem State.exists_kwKey {s : State} (h : s.klen.toNat ≤ 1) : ∃ k, s.kwKey = some k := by
  unfold State.kwKey
  split
  · exact ⟨_, rfl⟩
  · next h0 =>
    have h1 : s.klen = 1 := by bv_omega
    exact ⟨_, if_pos h1⟩

section
variable {c : Cipher} {s : State} {k : AesKey}

/-- WRAP on a LEN it takes (R141). -/
theorem wrapBody_of_legal (hk : s.kwKey = some k) (h16 : 16 ≤ s.len.toNat) (h56 : s.len.toNat ≤ 56)
    (h8 : s.len.toNat % 8 = 0) :
    wrapBody c s = .ok (s.loadBuf (keyWrap (c.enc k) s.message) (s.len + 8)) := by
  have hlen : ¬ (s.len.toNat < 16 ∨ 56 < s.len.toNat ∨ s.len.toNat % 8 ≠ 0) := by omega
  simp only [wrapBody, hk, if_neg hlen]
  rfl

/-- UNWRAP on a LEN it takes, when the integrity value is the constant (R142). -/
theorem unwrapBody_of_legal {p : List Byte} (hk : s.kwKey = some k) (h24 : 24 ≤ s.len.toNat)
    (h64 : s.len.toNat ≤ 64) (h8 : s.len.toNat % 8 = 0) (hout : keyUnwrap (c.dec k) s.message = (true, p)) :
    unwrapBody c s = .ok (s.loadBuf p (s.len - 8)) := by
  have hlen : ¬ (s.len.toNat < 24 ∨ 64 < s.len.toNat ∨ s.len.toNat % 8 ≠ 0) := by omega
  simp only [unwrapBody, hk, if_neg hlen, hout, if_true]
  rfl

/-- UNWRAP on the state WRAP left restores LEN and the key data, under any cipher whose two functions are inverse to
each other (R1). -/
theorem unwrapBody_of_wrapped {t : State} (hc : ∀ x, c.dec k (c.enc k x) = x) (hk : s.kwKey = some k)
    (h16 : 16 ≤ s.len.toNat) (h56 : s.len.toNat ≤ 56) (h8 : s.len.toNat % 8 = 0)
    (ht : t = (s.loadBuf (keyWrap (c.enc k) s.message) (s.len + 8)).retire .ok) :
    unwrapBody c t = .ok (t.loadBuf s.message s.len) := by
  have hlen : (s.len + 8).toNat = s.len.toNat + 8 := by bv_omega
  have hwrapped : (keyWrap (c.enc k) s.message).length = (s.len + 8).toNat := by
    rw [keyWrap_length, State.message_length]
    omega
  have htkey : t.kwKey = some k := by rw [ht, State.retire_kwKey, State.loadBuf_kwKey, hk]
  have htlen : t.len = s.len + 8 := by rw [ht, State.retire_len, State.loadBuf_len]
  have htmsg : t.message = keyWrap (c.enc k) s.message := by
    rw [ht, State.retire_message, State.loadBuf_message s hwrapped]
  have hout : keyUnwrap (c.dec k) t.message = (true, s.message) := by
    rw [htmsg, keyUnwrap_keyWrap (c.enc k) (c.dec k) hc s.message (by rw [State.message_length, h8])]
  have hback : t.len - 8 = s.len := by rw [htlen, BitVec.add_sub_cancel]
  rw [← htlen] at hlen
  rw [unwrapBody_of_legal htkey (by omega) (by omega) (by omega) hout, hback]

end

/-- Settles O45: WRAP leaves the wrapped data as the message, under a key it does not touch, and UNWRAP undoes it. -/
theorem unwrapUndoesWrap : Obligations.UnwrapUndoesWrap := by
  intro s hklen h16 h56 h8
  obtain ⟨k, hk⟩ := State.exists_kwKey hklen
  have hwrap : exec .wrap s = _ := complete_ok (wrapBody_of_legal hk h16 h56 h8)
  have hunwrap : exec .unwrap _ = _ := complete_ok (unwrapBody_of_wrapped (cipher_dec_enc k) hk h16 h56 h8 rfl)
  refine ⟨_, _, hwrap, State.retire_errCode .., hunwrap, State.retire_errCode .., ?_, ?_⟩
  · rw [State.retire_len, State.loadBuf_len]
  · rw [State.retire_bufBytes, State.loadBuf_bufBytes _ _ (State.message_length s)]
    rfl

end Sys2Proof.Machine
end

section
/-! The byte-array registers in their place (log entry 9): each write a command or the host makes of them lies inside one
array, so the canonical form and the place of the bytes are kept. -/

namespace Sys2Proof.Machine

/-- The byte-array registers are held in the canonical form, and nothing is held outside them. -/
def Memory.InPlace (m : Memory) : Prop := Memory.wf m ∧ ∀ c ∈ m, arrayOffset c.1 = true

theorem State.Inv.inPlace {s : State} (h : s.Inv) : s.mem.InPlace := ⟨h.memCanonical, h.memInArrays⟩

theorem arrayOffset_iff (a : Nat) :
    arrayOffset a = true ↔
      (0x080 ≤ a ∧ a < 0x098) ∨ (0x0A0 ≤ a ∧ a < 0x0B0) ∨ (0x0B8 ≤ a ∧ a < 0x0C0) ∨ (0x100 ≤ a ∧ a < 0x160) := by
  simp [arrayOffset, or_assoc]

/-- A byte string written inside the arrays keeps them in place. -/
theorem Memory.InPlace.writeBytes {m : Memory} (h : m.InPlace) {a : Nat} {bs : List Byte}
    (hin : ∀ b, a ≤ b → b < a + bs.length → arrayOffset b = true) : (m.writeBytes a bs).InPlace := by
  refine ⟨Memory.writeBytes_wf h.1 a bs, fun c hc => ?_⟩
  rcases Memory.mem_writeBytes hc with hc | ⟨hlow, hhigh⟩
  · exact h.2 c hc
  · exact hin c.1 hlow hhigh

/-- The host's write of an aligned word of an array keeps the arrays in place: their bounds are multiples of 4. -/
theorem Memory.InPlace.writeWord {m : Memory} (h : m.InPlace) {a : Nat} (v : Word) (h4 : a % 4 = 0)
    (hin : arrayOffset a = true) : (m.writeWord a v).InPlace :=
  h.writeBytes fun b hlow hhigh => by
    rw [leBytes_length] at hhigh
    rw [arrayOffset_iff] at hin ⊢
    omega

section
variable {s : State} {a : Nat} {bs : List Byte}

theorem State.writeBuf_inPlace (h : s.mem.InPlace) (hlen : a + bs.length ≤ 64) : (s.writeBuf a bs).mem.InPlace :=
  h.writeBytes fun b hlow hhigh => by
    rw [arrayOffset_iff]
    unfold bufBase at hlow hhigh
    omega

theorem State.writeReasm_inPlace (h : s.mem.InPlace) (hlen : a + bs.length ≤ 32) : (s.writeReasm a bs).mem.InPlace :=
  h.writeBytes fun b hlow hhigh => by
    rw [arrayOffset_iff]
    unfold reasmBase at hlow hhigh
    omega

theorem State.writeMac_inPlace (h : s.mem.InPlace) (hlen : bs.length ≤ 16) : (s.writeMac bs).mem.InPlace :=
  h.writeBytes fun b hlow hhigh => by
    rw [arrayOffset_iff]
    unfold macBase at hlow hhigh
    omega

theorem State.emitFrame_inPlace (h : s.mem.InPlace) (id : CanId) (hlen : bs.length ≤ 8) :
    (s.emitFrame id bs).mem.InPlace :=
  h.writeBytes fun b hlow hhigh => by
    rw [arrayOffset_iff]
    simp only [frameBase, List.length_append, zeros_length] at hlow hhigh
    omega

/-- An accepted fragment is stored inside REASM: FragCheck bounds its place and its length (R203, R209). -/
theorem State.storeFragment_inPlace (h : s.mem.InPlace) (hfit : s.fragCheck = true) : s.storeFragment.mem.InPlace := by
  have hlen : (s.fbBytes 2 s.frameFlen).length = s.frameFlen := Memory.readBytes_length _ _ _
  obtain ⟨-, -, hform⟩ := s.fragCheck_iff.1 hfit
  exact s.writeReasm_inPlace h (by omega)

end

end Sys2Proof.Machine
end

section
/-! What a command leaves before the lifecycle fields are written, said once over all commands, success and error alike;
what it does to STATUS and to the place of the byte arrays is read off it. -/

namespace Sys2Proof.Machine

/-- `s.Leaves i u`: performing command `i` on `s` may leave `u`, but for the lifecycle fields. A failed VERIFY or decoder
leaves what a successful one may leave too: MATCH and MOFS 0, or no format and KIND 0 (R114). -/
inductive State.Leaves (s : State) : Instr → State → Prop
  /-- The operand registers a crypto command, an encoder or a builder writes; any command may leave them all. -/
  | operands {i : Instr} (len : BitVec 7) (tpos : BitVec 6) (tag : Word) (id : CanId) (dlc : BitVec 4) (mem : Memory)
      (hmem : s.mem.InPlace → mem.InPlace) :
      s.Leaves i { s with len := len, tpos := tpos, tag := tag, frameId := id, frameDlc := dlc, mem := mem }
  /-- The verdict of VERIFY (R136). -/
  | verdict {i : Instr} (hi : isVerify i = true) (matched : Bool) (mofs : BitVec 2)
      (hmofs : mofs ≠ 0 → matched = true) :
      s.Leaves i { s with matched := matched, mofs := mofs }
  /-- The fields and the KIND of a decoded format (R204). -/
  | decoded {i : Instr} (hi : isDecoder i = true) (k : Kind) : s.Leaves i ((s.writeFields k).setKind k)
  /-- The fields and the data of a stored fragment (R209). -/
  | fragment (hfit : s.fragCheck = true) : s.Leaves .fragst ((s.writeFields .frag).storeFragment.setKind .frag)
  /-- The reassembly buffer cleared (R210). -/
  | cleared : s.Leaves .rclr { s.writeReasm 0 (zeros 32) with rmap := 0 }

/-- A command may leave everything but the lifecycle fields as it was. -/
theorem State.Leaves.refl (s : State) (i : Instr) : s.Leaves i s :=
  .operands s.len s.tpos s.tag s.frameId s.frameDlc s.mem fun h => h

/-! ## What each body leaves -/

section
variable {s u : State} {c : Cipher} {i : Instr} {bs : List Byte}

theorem leaves_of_cmacBody (h : cmacBody c s = .ok u) : s.Leaves i u := by
  unfold cmacBody at h
  split at h
  · cases h
  · split at h
    · cases h
    · cases h
      exact .operands _ _ _ _ _ _ fun hm => s.writeMac_inPlace hm (cmacBytes_length _ _).le

theorem leaves_of_signBody (h : signBody c s = .ok u) : s.Leaves i u := by
  unfold signBody at h
  split at h
  · cases h
  · split at h
    · cases h
    · cases h
      exact .operands _ _ _ _ _ _ fun hm => s.writeMac_inPlace hm (cmacBytes_length _ _).le

theorem leaves_of_verifyBody (hi : isVerify i = true) (h : verifyBody c s = .ok u) : s.Leaves i u := by
  unfold verifyBody at h
  split at h
  · cases h
  · split at h
    · cases h
    · cases h
      exact .verdict hi _ 0 (absurd rfl)

theorem leaves_of_verifyWBody (hi : isVerify i = true) (h : verifyWBody c s = .ok u) : s.Leaves i u := by
  unfold verifyWBody at h
  split at h
  · cases h
  · split at h
    · cases h
    · split at h
      · cases h
      · split at h
        · cases h
          exact .verdict hi true _ fun _ => rfl
        · cases h
          exact .verdict hi false 0 (absurd rfl)

/-- A command that fills BUF and LEN leaves operands. -/
theorem leaves_of_writeBuf (a : Nat) (len : BitVec 7) (hlen : a + bs.length ≤ 64) :
    s.Leaves i { s.writeBuf a bs with len := len } :=
  .operands _ _ _ _ _ _ fun hm => s.writeBuf_inPlace hm hlen

/-- A command that writes BUF twice, and LEN, leaves operands. -/
theorem leaves_of_writeBuf_writeBuf {a a' : Nat} {bs' : List Byte} (len : BitVec 7) (hlen : a + bs.length ≤ 64)
    (hlen' : a' + bs'.length ≤ 64) : s.Leaves i { (s.writeBuf a bs).writeBuf a' bs' with len := len } :=
  .operands _ _ _ _ _ _ fun hm => (s.writeBuf a bs).writeBuf_inPlace (s.writeBuf_inPlace hm hlen) hlen'

theorem leaves_of_gensubBody (h : gensubBody c s = .ok u) : s.Leaves i u := by
  have hblock : ∀ x, (blockBytes x).length = 16 := fun _ => beBytes_length 16 _
  unfold gensubBody at h
  split at h
  · cases h
  · cases h
    exact leaves_of_writeBuf_writeBuf 32 (by rw [hblock]; decide) (by rw [hblock]; decide)

theorem leaves_of_wrapBody (h : wrapBody c s = .ok u) : s.Leaves i u := by
  unfold wrapBody at h
  split at h
  · cases h
  · split at h
    · cases h
    · cases h
      exact leaves_of_writeBuf 0 _ (by rw [keyWrap_length, State.message_length]; omega)

theorem leaves_of_unwrapBody (h : unwrapBody c s = .ok u) : s.Leaves i u := by
  simp only [unwrapBody] at h
  split at h
  · cases h
  · split at h
    · cases h
    · split at h
      · cases h
        have hmsg := s.message_length
        exact leaves_of_writeBuf 0 _ (by rw [keyUnwrap_length _ _ (by omega) (by omega)]; omega)
      · cases h

theorem leaves_of_unwraprBody (h : unwraprBody c s = .ok u) : s.Leaves i u := by
  simp only [unwraprBody] at h
  split at h
  · cases h
  · split at h
    · cases h
    · split at h
      · cases h
        have hreasm : s.reasmBytes.length = 32 := Memory.readBytes_length _ _ _
        exact leaves_of_writeBuf 0 _ (by rw [keyUnwrap_length _ _ (by omega) (by omega)]; omega)
      · cases h

theorem leaves_of_emitFrame (id : CanId) (hlen : bs.length ≤ 8) : s.Leaves i (s.emitFrame id bs) :=
  .operands _ _ _ _ _ _ fun hm => s.emitFrame_inPlace hm id hlen

theorem leaves_of_encodeTo (hlen : bs.length ≤ 8) (h : encodeTo s bs = .ok u) : s.Leaves i u := by
  rcases encodeTo_cases s bs with ⟨-, he⟩ | ⟨-, he⟩ <;> rw [he] at h <;> cases h
  exact leaves_of_emitFrame _ hlen

theorem leaves_of_encodeForwarding (hlen : bs.length ≤ 8) (h : encodeForwarding s bs = .ok u) : s.Leaves i u := by
  rcases encodeForwarding_cases s bs with ⟨-, he⟩ | ⟨-, he⟩ <;> rw [he] at h <;> cases h
  exact leaves_of_emitFrame _ hlen

theorem fragLen_le (q : Nat) : fragLen q ≤ 6 := by
  unfold fragLen
  split <;> omega

theorem leaves_of_encfragBody (h : encfragBody s = .ok u) : s.Leaves i u := by
  have hlen : (s.fragmentFrame s.fragSeq).length ≤ 8 := by
    have := fragLen_le s.fragSeq
    simp only [State.fragmentFrame, List.length_cons, Memory.readBytes_length]
    omega
  unfold encfragBody at h
  split at h
  · cases h
  · split at h
    · split at h
      · cases h
      · cases h
        exact leaves_of_emitFrame _ hlen
    · cases h

theorem leaves_of_setPlaintext (hlen : bs.length ≤ 64) : s.Leaves i (s.setPlaintext bs) :=
  .operands _ _ _ _ _ _ fun hm => s.writeBuf_inPlace (a := 0) hm (by omega)

theorem leaves_of_buildBetween (hlen : bs.length ≤ 64) (h : buildBetween s bs = .ok u) : s.Leaves i u := by
  rcases buildBetween_cases s bs with ⟨-, he⟩ | ⟨-, he⟩ <;> rw [he] at h <;> cases h
  exact leaves_of_setPlaintext hlen

theorem leaves_of_ptskeyBody (h : ptskeyBody s = .ok u) : s.Leaves i u := by
  unfold ptskeyBody at h
  split at h
  · cases h
    exact leaves_of_writeBuf 16 24 (by simp [State.nonce])
  · cases h

theorem leaves_of_decodeAs {k : Option Kind} (hi : isDecoder i = true) (h : decodeAs s k = .ok u) : s.Leaves i u := by
  rcases decodeAs_cases s k with ⟨f, -, he⟩ | ⟨-, he⟩ <;> rw [he] at h <;> cases h
  exact .decoded hi f

theorem leaves_of_fragstBody (h : fragstBody s = .ok u) : s.Leaves .fragst u := by
  unfold fragstBody at h
  split at h
  · next hacc =>
    cases h
    simp only [State.fragAccepted, Bool.and_eq_true] at hacc
    exact .fragment hacc.2
  · cases h

end

/-! ## What a completion leaves -/

section
variable {s t u : State} {i : Instr} {onError : State → State} {body : Except ErrorCode State}

/-- A completion step leaves what its body left, or what is kept on an error, and then writes the lifecycle fields. -/
theorem exists_retire_of_complete (hok : ∀ u, body = .ok u → s.Leaves i u) (herr : s.Leaves i (onError s))
    (h : complete s onError body = .next t) : ∃ u c, s.Leaves i u ∧ t = u.retire c := by
  rcases complete_cases h with ⟨u, hbody, ht⟩ | ⟨c, -, ht⟩
  · exact ⟨u, .ok, hok u hbody, ht⟩
  · exact ⟨onError s, c, herr, ht⟩

/-- A command that on an error clears nothing but the lifecycle fields. -/
theorem exists_retire_of_complete_id (hok : ∀ u, body = .ok u → s.Leaves i u) (h : complete s id body = .next t) :
    ∃ u c, s.Leaves i u ∧ t = u.retire c :=
  exists_retire_of_complete hok (.refl s i) h

/-- A VERIFY, which on an error clears MATCH and MOFS. -/
theorem exists_retire_of_verify (hi : isVerify i = true) (hok : ∀ u, body = .ok u → s.Leaves i u)
    (h : complete s State.clearMatch body = .next t) : ∃ u c, s.Leaves i u ∧ t = u.retire c :=
  exists_retire_of_complete hok (.verdict hi false 0 (absurd rfl)) h

/-- A decoder, which on an error clears KIND. -/
theorem exists_retire_of_decoder (hi : isDecoder i = true) (hok : ∀ u, body = .ok u → s.Leaves i u)
    (h : complete s State.clearKind body = .next t) : ∃ u c, s.Leaves i u ∧ t = u.retire c :=
  exists_retire_of_complete hok (.decoded hi .none) h

/-- A body that cannot fail leaves the state it names. -/
theorem leaves_of_ok {v : State} (hv : s.Leaves i v) : ∀ u, Except.ok (ε := ErrorCode) v = .ok u → s.Leaves i u
  | _, rfl => hv

/-- Every command leaves what its body leaves, and then the lifecycle fields are written (R112): the one case split over
the commands. -/
theorem exec_leaves (h : exec i s = .next t) : ∃ u c, s.Leaves i u ∧ t = u.retire c := by
  cases i with
  | nop => exact exists_retire_of_complete_id (leaves_of_ok (.refl s _)) h
  | cmac => exact exists_retire_of_complete_id (fun _ => leaves_of_cmacBody) h
  | sign => exact exists_retire_of_complete_id (fun _ => leaves_of_signBody) h
  | verify => exact exists_retire_of_verify rfl (fun _ => leaves_of_verifyBody rfl) h
  | verifyW => exact exists_retire_of_verify rfl (fun _ => leaves_of_verifyWBody rfl) h
  | gensub => exact exists_retire_of_complete_id (fun _ => leaves_of_gensubBody) h
  | wrap => exact exists_retire_of_complete_id (fun _ => leaves_of_wrapBody) h
  | unwrap => exact exists_retire_of_complete_id (fun _ => leaves_of_unwrapBody) h
  | unwrapr => exact exists_retire_of_complete_id (fun _ => leaves_of_unwraprBody) h
  | encrq => exact exists_retire_of_complete_id (fun _ => leaves_of_encodeForwarding (by simp)) h
  | encch => exact exists_retire_of_complete_id (fun _ => leaves_of_encodeForwarding (by simp)) h
  | encchN => exact exists_retire_of_complete_id (fun _ => leaves_of_encodeForwarding (by simp [State.nonce])) h
  | encfrag => exact exists_retire_of_complete_id (fun _ => leaves_of_encfragBody) h
  | encack => exact exists_retire_of_complete_id (fun _ => leaves_of_encodeTo (by simp [State.tagBytes])) h
  | encsig16 => exact exists_retire_of_complete_id (fun _ => leaves_of_encodeTo (by simp [State.tagBytes])) h
  | encareq => exact exists_retire_of_complete_id (fun _ => leaves_of_encodeTo (by simp)) h
  | encareqM => exact exists_retire_of_complete_id (fun _ => leaves_of_encodeTo (by simp [State.tagBytes])) h
  | encsig32 => exact exists_retire_of_complete_id (leaves_of_ok (leaves_of_emitFrame _ (by simp [State.tagBytes]))) h
  | encplain => exact exists_retire_of_complete_id (leaves_of_ok (leaves_of_emitFrame _ (by simp))) h
  | enctime => exact exists_retire_of_complete_id (leaves_of_ok (leaves_of_emitFrame _ (by simp))) h
  | enctimeM => exact exists_retire_of_complete_id (leaves_of_ok (leaves_of_emitFrame _ (by simp [State.tagBytes]))) h
  | deccrypt => exact exists_retire_of_decoder rfl (fun _ => leaves_of_decodeAs rfl) h
  | deccryptK => exact exists_retire_of_decoder rfl (fun _ => leaves_of_decodeAs rfl) h
  | decsig32 => exact exists_retire_of_decoder rfl (fun _ => leaves_of_decodeAs rfl) h
  | decplain => exact exists_retire_of_decoder rfl (fun _ => leaves_of_decodeAs rfl) h
  | dectime => exact exists_retire_of_decoder rfl (fun _ => leaves_of_decodeAs rfl) h
  | fragst => exact exists_retire_of_decoder rfl (fun _ => leaves_of_fragstBody) h
  | rclr => exact exists_retire_of_complete_id (leaves_of_ok .cleared) h
  | ptsig16 => exact exists_retire_of_complete_id (fun _ => leaves_of_buildBetween (by simp [State.boundHeader])) h
  | ptsig32 =>
    exact exists_retire_of_complete_id (leaves_of_ok (leaves_of_setPlaintext (by simp [State.canIdBytes]))) h
  | ptack => exact exists_retire_of_complete_id (fun _ => leaves_of_buildBetween (by simp [State.boundHeader])) h
  | ptareq => exact exists_retire_of_complete_id (fun _ => leaves_of_buildBetween (by simp [State.boundHeader])) h
  | pttime =>
    exact exists_retire_of_complete_id
      (leaves_of_ok (leaves_of_setPlaintext (by simp [State.nonce, State.canIdBytes]))) h
  | ptskey => exact exists_retire_of_complete_id (fun _ => leaves_of_ptskeyBody) h

end

/-! ## What the commands keep -/

section
variable (s : State) (k : Kind)

@[simp] theorem writeFields_nodeCnt : (s.writeFields k).nodeCnt = s.nodeCnt := by rw [writeFields_frame]
@[simp] theorem writeFields_busyErr : (s.writeFields k).busyErr = s.busyErr := by rw [writeFields_frame]
@[simp] theorem writeFields_matched : (s.writeFields k).matched = s.matched := by rw [writeFields_frame]
@[simp] theorem writeFields_mofs : (s.writeFields k).mofs = s.mofs := by rw [writeFields_frame]
@[simp] theorem writeFields_rmap : (s.writeFields k).rmap = s.rmap := by rw [writeFields_frame]

/-- The field writes of a decoder leave the frame, and so what FragCheck says of it. -/
@[simp] theorem writeFields_fragCheck : (s.writeFields k).fragCheck = s.fragCheck := by
  rw [writeFields_frame]
  rfl

@[simp] theorem State.storeFragment_nodeCnt : s.storeFragment.nodeCnt = s.nodeCnt := rfl
@[simp] theorem State.storeFragment_busyErr : s.storeFragment.busyErr = s.busyErr := rfl
@[simp] theorem State.storeFragment_matched : s.storeFragment.matched = s.matched := rfl
@[simp] theorem State.storeFragment_mofs : s.storeFragment.mofs = s.mofs := rfl

end

section
variable {s u : State} {i : Instr}

theorem State.Leaves.nodeCnt_eq (h : s.Leaves i u) : u.nodeCnt = s.nodeCnt := by
  cases h <;> simp

theorem State.Leaves.busyErr_eq (h : s.Leaves i u) : u.busyErr = s.busyErr := by
  cases h <;> simp

/-- Only VERIFY writes MATCH and MOFS (R23). -/
theorem State.Leaves.match_eq (h : s.Leaves i u) (hi : isVerify i = false) :
    u.matched = s.matched ∧ u.mofs = s.mofs := by
  cases h with
  | verdict hv => rw [hv] at hi; cases hi
  | _ => simp

/-- Only the decoders write KIND (R23). -/
theorem State.Leaves.kind_eq (h : s.Leaves i u) (hi : isDecoder i = false) : u.kind = s.kind := by
  cases h with
  | decoded hd => rw [hd] at hi; cases hi
  | fragment => cases hi
  | _ => simp

/-- Only FRAGST and RCLR write RMAP (R39). -/
theorem State.Leaves.rmap_eq (h : s.Leaves i u) (hf : i ≠ .fragst) (hr : i ≠ .rclr) : u.rmap = s.rmap := by
  cases h with
  | fragment => exact absurd rfl hf
  | cleared => exact absurd rfl hr
  | _ => simp

/-- No command leaves MOFS without MATCH (R136). -/
theorem State.Leaves.matched_of_mofs (h : s.Leaves i u) (hs : s.mofs ≠ 0 → s.matched = true) :
    u.mofs ≠ 0 → u.matched = true := by
  cases h with
  | verdict _ _ _ hmofs => exact hmofs
  | _ => simpa using hs

/-- A command keeps KIND or writes the code of a format (R98). -/
theorem State.Leaves.kind_le (h : s.Leaves i u) (hs : s.kind.toNat ≤ 12) : u.kind.toNat ≤ 12 := by
  cases h with
  | decoded _ k => exact kindBits_le k
  | fragment => exact kindBits_le .frag
  | _ => simpa using hs

/-- Every write of a command stays inside the byte arrays. -/
theorem State.Leaves.inPlace (h : s.Leaves i u) (hs : s.mem.InPlace) : u.mem.InPlace := by
  cases h with
  | operands _ _ _ _ _ _ hmem => exact hmem hs
  | verdict => exact hs
  | decoded _ k => simpa using hs
  | fragment hfit => exact (s.writeFields .frag).storeFragment_inPlace (by simpa using hs) (by simpa using hfit)
  | cleared =>
    have hwrite : (s.writeReasm 0 (zeros 32)).mem.InPlace := s.writeReasm_inPlace hs (by simp)
    simpa using hwrite

end

/-- Settles O23: the fields a command leaves, with the lifecycle fields of its completion (R112). -/
theorem whoWritesTheStatusFields : Obligations.WhoWritesTheStatusFields := by
  intro i s t h
  obtain ⟨u, c, hu, rfl⟩ := exec_leaves h
  exact ⟨hu.match_eq, hu.kind_eq, hu.rmap_eq, rfl, rfl, hu.busyErr_eq⟩

end Sys2Proof.Machine
end

section
/-! The invariant over every step: a completion, by what a command leaves; a host access, register by register; a reset, by
the reset state. -/

namespace Sys2Proof.Machine

/-- The fields the invariant speaks of. -/
def State.invFields (s : State) : Memory × BitVec 7 × BitVec 8 × BitVec 4 × Bool × Bool × BitVec 2 × Bool :=
  (s.mem, s.nodeCnt, s.errCode, s.kind, s.busy, s.done, s.mofs, s.matched)

section
variable {s t : State}

/-- The invariant speaks of its fields only. -/
theorem State.Inv.congr (hs : s.Inv) (h : t.invFields = s.invFields) : t.Inv := by
  simp only [State.invFields, Prod.mk.injEq] at h
  obtain ⟨hmem, hcnt, herr, hkind, hbusy, hdone, hmofs, hmatched⟩ := h
  exact {
    memCanonical := hmem ▸ hs.memCanonical
    memInArrays := hmem ▸ hs.memInArrays
    nodeCntLegal := hcnt ▸ hs.nodeCntLegal
    errCodeKnown := herr ▸ hs.errCodeKnown
    kindKnown := hkind ▸ hs.kindKnown
    doneNotBusy := by rw [hbusy, hdone]; exact hs.doneNotBusy
    mofsOnlyMatched := by rw [hmofs, hmatched]; exact hs.mofsOnlyMatched }

/-- The state after reset meets the invariant (R291). -/
theorem reset_inv : State.reset.Inv where
  memCanonical := reset_mem_wf
  memInArrays := by decide
  nodeCntLegal := by decide
  errCodeKnown := by decide
  kindKnown := by decide
  doneNotBusy := by decide
  mofsOnlyMatched := by decide

theorem State.resetBlock_inv (s : State) : s.resetBlock.Inv := reset_inv.congr rfl

/-! ## Completions -/

/-- A completion keeps the invariant: BUSY falls, ERRCODE takes a known code, and the rest is what the command left. -/
theorem State.Leaves.retire_inv {u : State} {i : Instr} (hu : s.Leaves i u) (hs : s.Inv) (c : ErrorCode) :
    (u.retire c).Inv where
  memCanonical := (hu.inPlace hs.inPlace).1
  memInArrays := (hu.inPlace hs.inPlace).2
  nodeCntLegal := by rw [State.retire_nodeCnt, hu.nodeCnt_eq]; exact hs.nodeCntLegal
  errCodeKnown := errorCodeBits_le c
  kindKnown := hu.kind_le hs.kindKnown
  doneNotBusy := by simp
  mofsOnlyMatched := hu.matched_of_mofs hs.mofsOnlyMatched

theorem exec_inv {i : Instr} (hs : s.Inv) (h : exec i s = .next t) : t.Inv := by
  obtain ⟨u, c, hu, rfl⟩ := exec_leaves h
  exact hu.retire_inv hs c

/-- A word that names no command leaves what NOP leaves, but for its code (R116, R261). -/
theorem completeIllegal_inv (hs : s.Inv) (h : completeIllegal s = .next t) : t.Inv := by
  obtain rfl : s.retire .illegal = t := Host.Outcome.next.inj h
  exact (State.Leaves.refl s .nop).retire_inv hs .illegal

/-! ## Host accesses -/

theorem State.Inv.withMem (hs : s.Inv) {m : Memory} (hm : m.InPlace) : ({ s with mem := m } : State).Inv :=
  { hs with memCanonical := hm.1, memInArrays := hm.2 }

theorem arrayOffset_key (i : Fin 6) : arrayOffset (regOffset (.key i)) = true := by
  rw [arrayOffset_iff, regOffset, keyBase]
  omega

theorem arrayOffset_frameD (i : Fin 2) : arrayOffset (regOffset (.frameD i)) = true := by
  rw [arrayOffset_iff, regOffset, frameBase]
  omega

theorem arrayOffset_buf (i : Fin 16) : arrayOffset (regOffset (.buf i)) = true := by
  rw [arrayOffset_iff, regOffset, bufBase]
  omega

/-- The host's write of a word of a register that lies in the arrays. -/
theorem State.Inv.writeWord (hs : s.Inv) (r : Reg) (v : Word) (hin : arrayOffset (regOffset r) = true) :
    ({ s with mem := s.mem.writeWord (regOffset r) v } : State).Inv :=
  hs.withMem (hs.inPlace.writeWord v (regOffset_aligned r) hin)

theorem State.writeCtrl_inv (hs : s.Inv) (v : Word) : (s.writeCtrl v).Inv := by
  unfold State.writeCtrl
  split
  · exact s.resetBlock_inv
  · exact hs.congr rfl

theorem State.writeStatus_inv (hs : s.Inv) (v : Word) : (s.writeStatus v).Inv :=
  { hs with
    doneNotBusy := fun hb => by
      have hdone : s.done = false := hs.doneNotBusy hb
      simp [hdone] }

theorem State.issue_inv (hs : s.Inv) (w : Word) : (s.issue w).Inv :=
  { hs with doneNotBusy := fun _ => rfl }

/-- NODECNT stays legal: only 1 to 64 is stored, and bits `[6:0]` hold it (R25). -/
theorem State.writeNodeCnt_inv (hs : s.Inv) (v : Word) : (s.writeNodeCnt v).Inv := by
  unfold State.writeNodeCnt
  split
  · next hv =>
    have hkeep : (v.setWidth 7).toNat = v.toNat := by
      rw [BitVec.toNat_setWidth]
      omega
    exact { hs with nodeCntLegal := hkeep.symm ▸ hv }
  · exact hs

/-- A write of any register while BUSY = 0 keeps the invariant. -/
theorem State.writeReg_inv (hs : s.Inv) (r : Reg) (v : Word) : (s.writeReg r v).Inv := by
  cases r with
  | ctrl => exact State.writeCtrl_inv hs v
  | status => exact State.writeStatus_inv hs v
  | cmd => exact State.issue_inv hs v
  | nodeCnt => exact State.writeNodeCnt_inv hs v
  | key i => exact hs.writeWord (.key i) v (arrayOffset_key i)
  | frameD i => exact hs.writeWord (.frameD i) v (arrayOffset_frameD i)
  | buf i => exact hs.writeWord (.buf i) v (arrayOffset_buf i)
  | _ => exact hs.congr rfl

theorem State.writeIdle_inv (hs : s.Inv) (off : Nat) (v : Word) : (s.writeIdle off v).Inv := by
  unfold State.writeIdle
  split
  · exact State.writeReg_inv hs _ v
  · exact hs

theorem State.writeBusy_inv (hs : s.Inv) (off : Nat) (v : Word) : (s.writeBusy off v).Inv := by
  rcases writeBusy_cases s off v with ⟨-, h⟩ | ⟨-, h⟩ | ⟨-, h⟩ <;> rw [h]
  · exact State.writeStatus_inv hs v
  · exact s.resetBlock_inv
  · exact hs.congr rfl

theorem State.busRead_inv (hs : s.Inv) (off : Nat) : (s.busRead off).Inv := by
  rcases busRead_cases s off with ⟨-, h⟩ | ⟨-, h⟩ <;> rw [h] <;> exact hs.congr rfl

theorem State.busWrite_inv (hs : s.Inv) (off : Nat) (v : Word) : (s.busWrite off v).Inv := by
  have hwrite : (if s.busy then s.writeBusy off v else s.writeIdle off v).Inv := by
    split
    · exact State.writeBusy_inv hs off v
    · exact State.writeIdle_inv hs off v
  exact hwrite.congr rfl

theorem State.windowAccess_inv (hs : s.Inv) (a : HostAccess) (off : Nat) : (s.windowAccess a off).Inv := by
  rcases windowAccess_cases s a off with ⟨-, h⟩ | ⟨-, -, h⟩ | ⟨v, -, -, h⟩ <;> rw [h]
  · exact hs.congr rfl
  · exact State.busRead_inv hs off
  · exact State.busWrite_inv hs off v

theorem State.waitRound_inv (hs : s.Inv) : s.waitRound.Inv := by
  rw [State.waitRound_eq]
  exact hs.congr rfl

theorem hostStep_inv {e : HostEvent} (hs : s.Inv) (h : hostStep s e = .next t) : t.Inv := by
  rcases hostStep_cases h with ⟨a, off, -, -, rfl⟩ | ⟨-, rfl⟩ | ⟨-, rfl⟩
  · exact State.windowAccess_inv hs a off
  · exact s.resetBlock_inv
  · exact State.waitRound_inv hs

end

/-- Settles O31, case by case over what a step can do. -/
theorem everyStepKeepsTheInvariant : Obligations.EveryStepKeepsTheInvariant := by
  intro s t hs h
  rcases step_cases h with ⟨-, -, i, -, hexec⟩ | ⟨-, -, -, hillegal⟩ | ⟨-, ⟨-, rfl⟩ | ⟨e, rest, -, hhost⟩⟩
  · exact exec_inv hs hexec
  · exact completeIllegal_inv hs hillegal
  · exact hs.congr rfl
  · have hrest : ({ s.tick with inputs := rest } : State).Inv := hs.congr rfl
    exact hostStep_inv hrest hhost

end Sys2Proof.Machine
end

section
/-! The register map (R49), and NODECNT (R25). -/

namespace Sys2Proof.Machine

/-- An offset holds no register when it is none of the registers' offsets. -/
theorem regAt_eq_none_iff (off : Nat) : regAt off = none ↔ ∀ r, off ≠ regOffset r := by
  constructor
  · rintro h r rfl
    rw [regAt_regOffset] at h
    cases h
  · intro h
    cases hr : regAt off with
    | none => rfl
    | some r => exact absurd (regOffset_of_regAt hr).symm (h r)

/-- The 128 words of the window: none holds a register exactly in the reserved ranges (R49). -/
theorem regAt_word_eq_none_iff :
    ∀ k : Fin 128, regAt (4 * k.val) = none ↔ reservedOffset (4 * k.val) = true := by
  decide

theorem regAt_eq_none_iff_reservedOffset {off : Nat} (hlt : off < 0x200) (h4 : off % 4 = 0) :
    regAt off = none ↔ reservedOffset off = true := by
  have hword : 4 * (off / 4) = off := by omega
  have h := regAt_word_eq_none_iff ⟨off / 4, by omega⟩
  rwa [hword] at h

theorem reservedOffset_iff (off : Nat) :
    reservedOffset off = true ↔
      (0x024 ≤ off ∧ off ≤ 0x03C) ∨ (0x078 ≤ off ∧ off ≤ 0x07C) ∨ (0x098 ≤ off ∧ off ≤ 0x09C) ∨
        (0x0C0 ≤ off ∧ off ≤ 0x0FC) ∨ (0x160 ≤ off ∧ off ≤ 0x1FC) := by
  simp [reservedOffset, or_assoc]

/-- Settles O12: the offsets are those of `regOffset`, and the reserved ranges are where `regAt` finds nothing. -/
theorem registersStandAtTheirOffsets : Obligations.RegistersStandAtTheirOffsets := by
  refine ⟨by simp [regOffset], fun _ => rfl, fun _ => rfl, fun _ => rfl, fun _ => rfl, fun _ => rfl,
    fun _ _ => regOffset_injective, fun off hlt h4 => ?_⟩
  rw [← regAt_eq_none_iff, regAt_eq_none_iff_reservedOffset hlt h4, reservedOffset_iff]

theorem readReg_nodeCnt_toNat (s : State) : (s.readReg .nodeCnt).toNat = s.nodeCnt.toNat := by
  have hcnt := s.nodeCnt.isLt
  rw [State.readReg, BitVec.toNat_setWidth]
  omega

/-- A legal count is stored (R25). -/
theorem writeNodeCnt_of_legal (s : State) {v : Word} (h : 1 ≤ v.toNat ∧ v.toNat ≤ 64) :
    s.writeNodeCnt v = { s with nodeCnt := v.extractLsb' 0 7 } := by
  rw [State.writeNodeCnt, if_pos h, BitVec.setWidth_eq_extractLsb' (by decide)]

/-- Any other count is ignored (R25). -/
theorem writeNodeCnt_of_illegal (s : State) {v : Word} (h : v.toNat = 0 ∨ 64 < v.toNat) : s.writeNodeCnt v = s := by
  rw [State.writeNodeCnt, if_neg (by omega)]

/-- Settles O16: the legality check of the write, and the width of the field. -/
theorem nodeCountTakesOnlyLegalValues : Obligations.NodeCountTakesOnlyLegalValues := fun s _ =>
  ⟨writeNodeCnt_of_legal s, writeNodeCnt_of_illegal s, readReg_nodeCnt_toNat s, s.inRange_iff, rfl⟩

end Sys2Proof.Machine
end

section
/-! The key is write-only (R32): no register reads it, so no read of the window tells blocks with different keys apart. -/

namespace Sys2Proof.Machine

section
variable {s : State} {m : Memory}

/-- A word outside the key array reads alike where the memories differ only in that array. -/
theorem readWord_of_sameOutside_key (h : Memory.sameOutside s.mem m 0x080 24) {a : Nat}
    (ha : a + 4 ≤ 0x080 ∨ 0x098 ≤ a) : m.readWord a = s.mem.readWord a := by
  unfold Memory.readWord
  rw [Memory.readBytes_congr fun b hlow hhigh => h b (by omega)]

/-- No register reads the key: MAC, FRAME_D, BUF and REASM lie outside it, and KEY reads 0. -/
theorem readReg_of_sameOutside_key (h : Memory.sameOutside s.mem m 0x080 24) (r : Reg) :
    ({ s with mem := m } : State).readReg r = s.readReg r := by
  cases r with
  | mac i => exact readWord_of_sameOutside_key h (by simp only [regOffset, macBase]; omega)
  | frameD i => exact readWord_of_sameOutside_key h (by simp only [regOffset, frameBase]; omega)
  | buf i => exact readWord_of_sameOutside_key h (by simp only [regOffset, bufBase]; omega)
  | reasm i => exact readWord_of_sameOutside_key h (by simp only [regOffset, reasmBase]; omega)
  | _ => rfl

theorem readIdle_of_sameOutside_key (h : Memory.sameOutside s.mem m 0x080 24) (off : Nat) :
    ({ s with mem := m } : State).readIdle off = s.readIdle off := by
  unfold State.readIdle
  split
  · exact readReg_of_sameOutside_key h _
  · rfl

end

/-- The answer of a read: the register's value, or the free value of R117, which depends on neither block. -/
theorem busRead_answer (s : State) (off : Nat) :
    (s.busRead off).answer =
      if s.busy && !exactWhileBusy off then .data (Config.busyRead s.draws) else .data (s.readIdle off) := by
  unfold State.busRead
  split <;> rfl

/-- Settles O20: an access that is not accepted answers a bus error, a read its register or a free value. -/
theorem keyIsNeverReadBack : Obligations.KeyIsNeverReadBack := by
  intro s m a off hread hsame
  simp only [State.windowAccess, hread]
  split
  · rw [busRead_answer, busRead_answer, readIdle_of_sameOutside_key hsame]
  · rfl

end Sys2Proof.Machine
end

section
/-! The fields of STATUS and CTRL (R22, R23), and the bits the registers define (R49). -/

namespace Sys2Proof.Machine

/-! ## The fields of STATUS and CTRL -/

section
variable (s : State)

theorem State.err_iff : s.err = true ↔ s.errCode ≠ 0 := by simp [State.err]

theorem State.rfull_iff : s.rfull = true ↔ s.rmap = 0x3F := by simp [State.rfull]

/-- The one-bit fields of STATUS, BUSY apart (`readReg_status_busy`). -/
theorem statusWord_bits :
    s.statusWord.getLsbD 1 = s.done ∧ s.statusWord.getLsbD 2 = s.err ∧ s.statusWord.getLsbD 3 = s.matched ∧
      s.statusWord.getLsbD 6 = s.busyErr ∧ s.statusWord.getLsbD 22 = s.rfull := by
  simp only [State.statusWord, BitVec.getLsbD_append]
  simp

/-- The wider fields of STATUS: each stands above the fields appended after it. -/
theorem statusWord_fields :
    s.statusWord.extractLsb' 4 2 = s.mofs ∧ s.statusWord.extractLsb' 8 8 = s.errCode ∧
      s.statusWord.extractLsb' 16 6 = s.rmap ∧ s.statusWord.extractLsb' 24 4 = s.kind := by
  simp (disch := decide) only [State.statusWord, BitVec.extractLsb'_append_eq_of_le,
    BitVec.extractLsb'_append_eq_of_add_le]
  simp

/-- The fields of CTRL; SRST reads 0. -/
theorem ctrlWord_fields :
    s.ctrlWord.getLsbD 0 = false ∧ s.ctrlWord.getLsbD 1 = s.ie ∧ s.ctrlWord.extractLsb' 4 2 = s.klen := by
  simp (disch := decide) only [State.ctrlWord, BitVec.getLsbD_append, BitVec.extractLsb'_append_eq_of_le,
    BitVec.extractLsb'_append_eq_of_add_le]
  simp

/-- A write of CTRL without SRST stores IE and KLEN (R22). -/
theorem writeCtrl_of_no_srst {v : Word} (h : v.getLsbD 0 = false) :
    s.writeCtrl v = { s with ie := v.getLsbD 1, klen := v.extractLsb' 4 2 } := by
  rw [State.writeCtrl, h]
  rfl

end

/-- Settles O22, field by field. -/
theorem statusAndCtrlFields : Obligations.StatusAndCtrlFields := by
  intro s
  obtain ⟨hdone, herr, hmatched, hbusyErr, hrfull⟩ := statusWord_bits s
  obtain ⟨hmofs, herrCode, hrmap, hkind⟩ := statusWord_fields s
  obtain ⟨hsrst, hie, hklen⟩ := ctrlWord_fields s
  exact ⟨readReg_status_busy s, hdone, herr ▸ s.err_iff, hmatched, hmofs, hbusyErr, herrCode, hrmap,
    hrfull ▸ s.rfull_iff, hkind, hsrst, hie, hklen, fun _ => ⟨rfl, writeCtrl_of_no_srst s⟩⟩

/-! ## The defined bits of the registers -/

/-- A register of 32 defined bits has no reserved one. -/
theorem and_not_fullMask (x : Word) : x &&& ~~~(0xFFFFFFFF : Word) = 0 := by simp

/-- A field of `n` bits reads 0 above them. -/
theorem setWidth_and_not_mask {n : Nat} (x : BitVec n) {mask : Word} (hmask : mask = (BitVec.allOnes n).setWidth 32) :
    x.setWidth 32 &&& ~~~mask = 0 := by
  subst hmask
  ext i hi
  have hbit : x.getLsbD i = true → i < n := BitVec.lt_of_getLsbD
  simpa using hbit

theorem CanId.toWord_and_not_mask (c : CanId) : c.toWord &&& ~~~(0x9FFFFFFF : Word) = 0 := by
  have hfields : (BitVec.ofBool c.ext ++ 0#2 ++ c.ident) &&&
      ~~~(BitVec.allOnes 1 ++ 0#2 ++ BitVec.allOnes 29) = 0#1 ++ 0#2 ++ 0#29 := by
    simp only [BitVec.not_append, BitVec.and_append, BitVec.not_allOnes, BitVec.and_zero, BitVec.zero_and]
  exact hfields

theorem ctrlWord_and_not_mask (s : State) : s.ctrlWord &&& ~~~(0x00000033 : Word) = 0 := by
  have hfields : (0#26 ++ s.klen ++ 0#2 ++ BitVec.ofBool s.ie ++ 0#1) &&&
      ~~~(0#26 ++ BitVec.allOnes 2 ++ 0#2 ++ BitVec.allOnes 1 ++ BitVec.allOnes 1) =
        0#26 ++ 0#2 ++ 0#2 ++ 0#1 ++ 0#1 := by
    simp only [BitVec.not_append, BitVec.and_append, BitVec.not_allOnes, BitVec.and_zero, BitVec.zero_and]
  exact hfields

/-- STATUS: bits 7, 23 and `[31:28]` are reserved, the fields lie between them. -/
theorem statusWord_and_not_mask (s : State) : s.statusWord &&& ~~~(0x0F7FFF7F : Word) = 0 := by
  have hfields : (0#4 ++ s.kind ++ 0#1 ++ BitVec.ofBool s.rfull ++ s.rmap ++ s.errCode ++ 0#1 ++
      BitVec.ofBool s.busyErr ++ s.mofs ++ BitVec.ofBool s.matched ++ BitVec.ofBool s.err ++ BitVec.ofBool s.done ++
      BitVec.ofBool s.busy) &&&
      ~~~(0#4 ++ BitVec.allOnes 4 ++ 0#1 ++ BitVec.allOnes 1 ++ BitVec.allOnes 6 ++ BitVec.allOnes 8 ++ 0#1 ++
        BitVec.allOnes 1 ++ BitVec.allOnes 2 ++ BitVec.allOnes 1 ++ BitVec.allOnes 1 ++ BitVec.allOnes 1 ++
        BitVec.allOnes 1) =
        0#4 ++ 0#4 ++ 0#1 ++ 0#1 ++ 0#6 ++ 0#8 ++ 0#1 ++ 0#1 ++ 0#2 ++ 0#1 ++ 0#1 ++ 0#1 ++ 0#1 := by
    simp only [BitVec.not_append, BitVec.and_append, BitVec.not_allOnes, BitVec.and_zero, BitVec.zero_and]
  exact hfields

/-- Every register reads 0 in its reserved bits (R49). -/
theorem readReg_and_not_definedBits (s : State) (r : Reg) : s.readReg r &&& ~~~definedBits r = 0 := by
  cases r with
  | ctrl => exact ctrlWord_and_not_mask s
  | status => exact statusWord_and_not_mask s
  | txid => exact s.txid.toWord_and_not_mask
  | fCanid => exact s.fCanid.toWord_and_not_mask
  | frameId => exact s.frameId.toWord_and_not_mask
  | nodeCnt | len | tpos | fType | fDst | fSrc | fFwd | fFrag | fSignum | fPresc | fMask | fNonce1 | frameDlc =>
    exact setWidth_and_not_mask _ (by decide)
  | _ => exact and_not_fullMask _

/-- A write of a field of `n` bits ignores the bits above them. -/
theorem setWidth_and_mask {n : Nat} (v : Word) {mask : Word} (hmask : mask.setWidth n = BitVec.allOnes n) :
    (v &&& mask).setWidth n = v.setWidth n := by
  rw [BitVec.setWidth_and, hmask, BitVec.and_allOnes]

/-- The bits a mask keeps are those of the word. -/
theorem extractLsb'_and_mask {start n : Nat} (v : Word) {mask : Word}
    (hmask : mask.extractLsb' start n = BitVec.allOnes n) :
    (v &&& mask).extractLsb' start n = v.extractLsb' start n := by
  rw [BitVec.extractLsb'_and, hmask, BitVec.and_allOnes]

theorem and_fullMask (v : Word) : v &&& (0xFFFFFFFF : Word) = v := BitVec.and_allOnes

theorem CanId.ofWord_and_mask (v : Word) : CanId.ofWord (v &&& (0x9FFFFFFF : Word)) = CanId.ofWord v := by
  rw [CanId.ofWord, extractLsb'_and_mask v (by decide)]
  simp [CanId.ofWord]

theorem writeCtrl_and_mask (s : State) (v : Word) : s.writeCtrl (v &&& (0x00000033 : Word)) = s.writeCtrl v := by
  rw [State.writeCtrl, extractLsb'_and_mask v (by decide)]
  simp [State.writeCtrl]

theorem writeStatus_and_mask (s : State) (v : Word) : s.writeStatus (v &&& (0x0F7FFF7F : Word)) = s.writeStatus v := by
  simp [State.writeStatus]

/-- A write of a register but NODECNT ignores its reserved bits (R49). -/
theorem writeReg_and_definedBits (s : State) {r : Reg} (v : Word) (hr : r ≠ .nodeCnt) :
    s.writeReg r (v &&& definedBits r) = s.writeReg r v := by
  cases r with
  | nodeCnt => exact absurd rfl hr
  | ctrl => exact writeCtrl_and_mask s v
  | status => exact writeStatus_and_mask s v
  | txid | fCanid | frameId => simp only [State.writeReg, definedBits, CanId.ofWord_and_mask]
  | len | tpos | fDst | fSrc | fFwd | fFrag | fSignum | fPresc | fMask | fNonce1 | frameDlc =>
    simp (disch := decide) only [State.writeReg, definedBits, setWidth_and_mask]
  | fType => rfl
  | _ => exact congrArg (s.writeReg _) (and_fullMask v)

/-- At a reserved offset there is no register to read or write (R49). -/
theorem regAt_of_reservedOffset {off : Nat} (hres : reservedOffset off = true) (h4 : off % 4 = 0) :
    regAt off = none := by
  have hlt : off < 0x200 := by
    have hranges := (reservedOffset_iff off).1 hres
    omega
  exact (regAt_eq_none_iff_reservedOffset hlt h4).2 hres

/-- Settles O15: no register stands at a reserved offset, and reserved bits are not stored. -/
theorem reservedOffsetsAndBits : Obligations.ReservedOffsetsAndBits := by
  intro s v
  refine ⟨fun off hres h4 => ?_, readReg_and_not_definedBits s, fun r hr => (writeReg_and_definedBits s v hr).symm⟩
  have hnone := regAt_of_reservedOffset hres h4
  exact ⟨by rw [State.readIdle, hnone], by rw [State.writeIdle, hnone]⟩

end Sys2Proof.Machine
end

section
/-! The accesses of the window (R61, R62, R65, R117): what the step of an access is, and what it answers. -/

namespace Sys2Proof.Machine

/-- The window accepts an access exactly when it is 32 bits wide and aligned (R65). -/
theorem accepted_iff (a : HostAccess) : a.accepted = true ↔ a.width = .word ∧ a.addr % 4 = 0 := by
  simp [HostAccess.accepted]

@[simp] theorem readIdle_regOffset (s : State) (r : Reg) : s.readIdle (regOffset r) = s.readReg r := by
  rw [State.readIdle, regAt_regOffset]

theorem readIdle_of_no_reg (s : State) {off : Nat} (h : ∀ r, off ≠ regOffset r) : s.readIdle off = 0 := by
  rw [State.readIdle, (regAt_eq_none_iff off).2 h]

@[simp] theorem writeIdle_regOffset (s : State) (r : Reg) (v : Word) :
    s.writeIdle (regOffset r) v = s.writeReg r v := by
  rw [State.writeIdle, regAt_regOffset]

theorem writeIdle_of_no_reg (s : State) {off : Nat} (v : Word) (h : ∀ r, off ≠ regOffset r) :
    s.writeIdle off v = s := by
  rw [State.writeIdle, (regAt_eq_none_iff off).2 h]

theorem exactWhileBusy_eq_false_iff (off : Nat) :
    exactWhileBusy off = false ↔ off ≠ 0x000 ∧ off ≠ 0x004 ∧ off ≠ 0x008 := by
  simp [exactWhileBusy, regOffset, and_assoc]

section
variable {s : State} {a : HostAccess} {off : Nat} {rest : List HostEvent}

/-- No register reads what a step of the run consumes: the event performed, and one step of the latency. -/
theorem readReg_tick (r : Reg) : ({ s.tick with inputs := rest } : State).readReg r = s.readReg r := by
  cases r <;> rfl

theorem readIdle_tick : ({ s.tick with inputs := rest } : State).readIdle off = s.readIdle off := by
  unfold State.readIdle
  split
  · exact readReg_tick _
  · rfl

/-- While no completion is due, the step of an access of the window is that access (R70). -/
theorem step_access (hdue : s.busy = true → s.latency ≠ 0) (hin : s.inputs = .access a :: rest)
    (hoff : windowOffset a.addr = some off) :
    step s = .next (({ s.tick with inputs := rest } : State).windowAccess a off) := by
  rw [step_host (fun ⟨hb, hl⟩ => hdue hb hl) hin]
  simp only [hostStep, hoff]

theorem windowAccess_of_not_accepted (h : ¬ a.accepted = true) :
    s.windowAccess a off = { s with answer := .busError } :=
  if_neg h

theorem windowAccess_read (hacc : a.accepted = true) (hop : a.op = .read) : s.windowAccess a off = s.busRead off := by
  simp only [State.windowAccess, hacc, hop, if_true]

theorem windowAccess_write {v : Word} (hacc : a.accepted = true) (hop : a.op = .write v) :
    s.windowAccess a off = s.busWrite off v := by
  simp only [State.windowAccess, hacc, hop, if_true]

/-- A read the block answers exactly: while BUSY = 0, or of ID, CTRL or STATUS (R61, R117). -/
theorem busRead_exact (h : s.busy = false ∨ exactWhileBusy off = true) :
    s.busRead off = { s with answer := .data (s.readIdle off) } := by
  rcases busRead_cases s off with ⟨-, hread⟩ | ⟨⟨hb, he⟩, -⟩
  · exact hread
  · simp [hb, he] at h

/-- Any other read while BUSY = 1 draws a free value (R117). -/
theorem busRead_free (hb : s.busy = true) (he : exactWhileBusy off = false) :
    s.busRead off = { s with answer := .data (Config.busyRead s.draws), draws := s.draws + 1 } := by
  rcases busRead_cases s off with ⟨h, -⟩ | ⟨-, hread⟩
  · simp [hb, he] at h
  · exact hread

/-- The step of a read that is answered exactly changes nothing of the block (R61). -/
theorem step_read_exact (hdue : s.busy = true → s.latency ≠ 0) (hin : s.inputs = .access a :: rest)
    (hoff : windowOffset a.addr = some off) (hacc : a.accepted = true) (hop : a.op = .read)
    (h : s.busy = false ∨ exactWhileBusy off = true) :
    step s = .next { s with answer := .data (s.readIdle off), inputs := rest, latency := s.latency - 1 } := by
  rw [step_access hdue hin hoff, windowAccess_read hacc hop, busRead_exact (s := { s.tick with inputs := rest }) h,
    readIdle_tick]
  rfl

/-- The step of any other read while BUSY = 1 changes nothing of the block either (R117). -/
theorem step_read_free (hdue : s.busy = true → s.latency ≠ 0) (hin : s.inputs = .access a :: rest)
    (hoff : windowOffset a.addr = some off) (hacc : a.accepted = true) (hop : a.op = .read) (hb : s.busy = true)
    (he : exactWhileBusy off = false) :
    step s = .next { s with answer := .data (Config.busyRead s.draws), draws := s.draws + 1, inputs := rest,
                            latency := s.latency - 1 } := by
  rw [step_access hdue hin hoff, windowAccess_read hacc hop, busRead_free (s := { s.tick with inputs := rest }) hb he]
  rfl

end

/-- Settles O18: an access that is not accepted answers a bus error and nothing else. -/
theorem otherAccessesEndInABusError : Obligations.OtherAccessesEndInABusError := by
  refine fun s a off rest => ⟨accepted_iff a, fun hdue hin hoff hbad => ?_⟩
  have hnot : ¬ a.accepted = true := fun hacc => hbad ((accepted_iff a).1 hacc)
  rw [step_access hdue hin hoff, windowAccess_of_not_accepted hnot]
  rfl

/-- Settles O13: while idle the step of a write is the write at the offset, which the register map resolves. -/
theorem idleWritesReachTheirRegister : Obligations.IdleWritesReachTheirRegister := by
  intro s a off v rest hidle hin hoff hacc hop
  have hstep : step s = .next { ({ s.tick with inputs := rest } : State).writeIdle off v with answer := .written } := by
    have hdue : s.busy = true → s.latency ≠ 0 := fun hb => by simp [hidle] at hb
    have hidle' : ¬ s.tick.busy = true := by simp [hidle]
    rw [step_access hdue hin hoff, windowAccess_write hacc hop, State.busWrite, if_neg hidle']
  constructor
  · rintro r rfl
    rw [hstep, writeIdle_regOffset]
    rfl
  · intro hnone
    rw [hstep, writeIdle_of_no_reg _ v hnone]
    rfl

/-- Settles O7: every clause but the last is a read answered exactly, the last one a draw. -/
theorem readsWhileBusy : Obligations.ReadsWhileBusy := by
  intro s a off rest hdue hin hoff hacc hop answers
  have hexact : s.busy = false ∨ exactWhileBusy off = true → answers (s.readIdle off) :=
    step_read_exact hdue hin hoff hacc hop
  have hreg : ∀ r, off = regOffset r → s.busy = false ∨ exactWhileBusy off = true → answers (s.readReg r) := by
    rintro r rfl h
    exact readIdle_regOffset s r ▸ hexact h
  refine ⟨fun h => hreg .id h (.inr (by rw [h]; rfl)), fun h => hreg .ctrl h (.inr (by rw [h]; rfl)),
    fun h => hreg .status h (.inr (by rw [h]; rfl)), fun hidle => ⟨fun r h => hreg r h (.inl hidle), fun hnone => ?_⟩,
    fun ⟨hb, hother⟩ => ?_⟩
  · exact readIdle_of_no_reg s hnone ▸ hexact (.inl hidle)
  · exact step_read_free hdue hin hoff hacc hop hb ((exactWhileBusy_eq_false_iff off).2 hother)

end Sys2Proof.Machine
end

section
/-! What a write of a register leaves (R62): a plain read-write register reads back its defined bits, and every other
register reads as before. -/

namespace Sys2Proof.Machine

/-! ## Words of the byte-array registers -/

/-- A word just written reads back. -/
theorem readWord_writeWord_same (m : Memory) (a : Nat) (v : Word) : (m.writeWord a v).readWord a = v := by
  have hbytes := Memory.readBytes_writeBytes_same m a (leBytes 4 v.toNat)
  rw [leBytes_length] at hbytes
  rw [Memory.readWord, Memory.writeWord, hbytes, ofNat_fromLE_leBytes]

/-- A range that the word written does not meet reads as before. -/
theorem readBytes_writeWord_out (m : Memory) {a b n : Nat} (v : Word) (h : b + n ≤ a ∨ a + 4 ≤ b) :
    (m.writeWord a v).readBytes b n = m.readBytes b n :=
  Memory.readBytes_writeBytes_out m a b n _ (by rwa [leBytes_length])

/-- The words of two registers do not meet: their offsets are different multiples of 4. -/
theorem readWord_writeWord_of_ne (m : Memory) {r r' : Reg} (v : Word) (h : r' ≠ r) :
    (m.writeWord (regOffset r) v).readWord (regOffset r') = m.readWord (regOffset r') := by
  have hoff : regOffset r' ≠ regOffset r := fun heq => h (regOffset_injective heq)
  have halign := regOffset_aligned r
  have halign' := regOffset_aligned r'
  rw [Memory.readWord, Memory.readWord, readBytes_writeWord_out m v (by omega)]

/-- A write of a word touches only its four bytes. -/
theorem sameOutside_writeWord (m : Memory) (a : Nat) (v : Word) : m.sameOutside (m.writeWord a v) a 4 :=
  fun b hb => Memory.read_writeBytes_out m a b _ (by rw [leBytes_length]; omega)

/-! ## Read-back -/

/-- A field of `n` bits reads back as those bits of the word written. -/
theorem setWidth_setWidth_eq_and {n : Nat} (v : Word) {mask : Word} (hmask : mask = (BitVec.allOnes n).setWidth 32) :
    (v.setWidth n).setWidth 32 = v &&& mask := by
  subst hmask
  ext i hi
  simp [hi, Bool.and_comm]

/-- A CAN identifier reads back without bits `[30:29]` (R35). -/
theorem CanId.toWord_ofWord (v : Word) : (CanId.ofWord v).toWord = v &&& (0x9FFFFFFF : Word) := by
  have hv : BitVec.ofBool (v.getLsbD 31) ++ v.extractLsb' 29 2 ++ v.extractLsb' 0 29 = v := by
    have htop : BitVec.ofBool (v.getLsbD 31) = v.extractLsb' 31 1 := by
      ext i hi
      obtain rfl : i = 0 := by omega
      simp
    rw [htop, BitVec.extractLsb'_append_extractLsb'_eq_extractLsb' (by decide),
      BitVec.extractLsb'_append_extractLsb'_eq_extractLsb' (by decide), BitVec.extractLsb'_eq_self]
  calc
    (CanId.ofWord v).toWord = BitVec.ofBool (v.getLsbD 31) ++ 0#2 ++ v.extractLsb' 0 29 := rfl
    _ = (BitVec.ofBool (v.getLsbD 31) ++ v.extractLsb' 29 2 ++ v.extractLsb' 0 29) &&&
        (BitVec.allOnes 1 ++ 0#2 ++ BitVec.allOnes 29) := by
      simp only [BitVec.and_append, BitVec.and_allOnes, BitVec.and_zero]
    _ = v &&& (0x9FFFFFFF : Word) := by
      rw [hv]
      rfl

/-- A plain read-write register reads back the bits it defines. -/
theorem readReg_writeReg_same (s : State) {r : Reg} (v : Word) (hr : plainReadWrite r = true) :
    (s.writeReg r v).readReg r = v &&& definedBits r := by
  cases r with
  | txid | fCanid | frameId => exact CanId.toWord_ofWord v
  | time | fValue | fTime | fNonce0 | tag => exact (and_fullMask v).symm
  | len | tpos | fDst | fSrc | fFwd | fFrag | fSignum | fPresc | fMask | fNonce1 | frameDlc =>
    exact setWidth_setWidth_eq_and v (by decide)
  | frameD i | buf i => exact (readWord_writeWord_same _ _ v).trans (and_fullMask v).symm
  | _ => cases hr

/-! ## What a write keeps -/

/-- A write of a plain read-write register, field by field: a field takes the word when it is the register written. Of
the arrays only FRAME_D and BUF, the plain read-write registers from FRAME_D0 on, are written. -/
theorem writeReg_of_plain (s : State) {r : Reg} (v : Word) (hr : plainReadWrite r = true) :
    s.writeReg r v =
      { s with
        txid := if r = .txid then CanId.ofWord v else s.txid
        time := if r = .time then v else s.time
        len := if r = .len then v.setWidth 7 else s.len
        tpos := if r = .tpos then v.setWidth 6 else s.tpos
        fDst := if r = .fDst then v.setWidth 8 else s.fDst
        fSrc := if r = .fSrc then v.setWidth 8 else s.fSrc
        fFwd := if r = .fFwd then v.setWidth 8 else s.fFwd
        fFrag := if r = .fFrag then v.setWidth 8 else s.fFrag
        fSignum := if r = .fSignum then v.setWidth 8 else s.fSignum
        fPresc := if r = .fPresc then v.setWidth 8 else s.fPresc
        fValue := if r = .fValue then v else s.fValue
        fMask := if r = .fMask then v.setWidth 24 else s.fMask
        fTime := if r = .fTime then v else s.fTime
        fCanid := if r = .fCanid then CanId.ofWord v else s.fCanid
        fNonce0 := if r = .fNonce0 then v else s.fNonce0
        fNonce1 := if r = .fNonce1 then v.setWidth 16 else s.fNonce1
        tag := if r = .tag then v else s.tag
        frameId := if r = .frameId then CanId.ofWord v else s.frameId
        frameDlc := if r = .frameDlc then v.setWidth 4 else s.frameDlc
        mem := if frameBase ≤ regOffset r then s.mem.writeWord (regOffset r) v else s.mem } := by
  cases r with
  | frameD i =>
    have hbase : frameBase ≤ regOffset (.frameD i) := Nat.le_add_right_of_le (by decide)
    rw [if_pos hbase]
    rfl
  | buf i =>
    have hbase : frameBase ≤ regOffset (.buf i) := Nat.le_add_right_of_le (by decide)
    rw [if_pos hbase]
    rfl
  | id | ctrl | status | cmd | nodeCnt | fType | key | mac | reasm => cases hr
  | _ => rfl

/-- A write of a plain read-write register leaves the words of the other registers in the arrays as they were. -/
theorem readWord_writeReg_of_ne (s : State) {r r' : Reg} (v : Word) (hr : plainReadWrite r = true) (h : r' ≠ r) :
    (s.writeReg r v).mem.readWord (regOffset r') = s.mem.readWord (regOffset r') := by
  rw [writeReg_of_plain s v hr]
  dsimp only
  split
  · exact readWord_writeWord_of_ne s.mem v h
  · rfl

/-- A write of a plain read-write register leaves every other register's reading as it was. -/
theorem readReg_writeReg_of_ne (s : State) {r r' : Reg} (v : Word) (hr : plainReadWrite r = true) (h : r' ≠ r) :
    (s.writeReg r v).readReg r' = s.readReg r' := by
  cases r' with
  | mac i | frameD i | buf i | reasm i => exact readWord_writeReg_of_ne s v hr h
  | _ => simp only [writeReg_of_plain s v hr, State.readReg, if_neg h.symm] <;> rfl

/-- The key array lies before every array a plain read-write register writes. -/
theorem keyArr_writeReg (s : State) {r : Reg} (v : Word) (hr : plainReadWrite r = true) :
    (s.writeReg r v).keyArr 24 = s.keyArr 24 := by
  rw [writeReg_of_plain s v hr]
  unfold State.keyArr
  dsimp only
  split
  next hbase => exact readBytes_writeWord_out s.mem v (.inl (Nat.le_trans (by decide) hbase))
  next => rfl

/-- A read-only register ignores writes (R62). -/
theorem writeReg_of_readOnly (s : State) {r : Reg} (v : Word) (hr : readOnly r = true) : s.writeReg r v = s := by
  cases r with
  | id | fType | mac | reasm => rfl
  | _ => cases hr

/-- Settles O14, by the kind of register; KEYi is a word of the key array, which no register reads (R32). -/
theorem registersStoreTheirDefinedBits : Obligations.RegistersStoreTheirDefinedBits := by
  intro s r v
  refine ⟨fun hr => ⟨readReg_writeReg_same s v hr, fun _ h => readReg_writeReg_of_ne s v hr h, keyArr_writeReg s v hr⟩,
    writeReg_of_readOnly s v, ?_, rfl⟩
  rintro i rfl
  exact ⟨rfl, readWord_writeWord_same s.mem _ v, sameOutside_writeWord s.mem _ v, rfl⟩

end Sys2Proof.Machine
end

section
/-! The opcode map and the opcode table (R80 to R82): decoding and encoding agree. -/

namespace Sys2Proof

/-- The word of the three fields, from bit 31 down (R80). -/
def CommandFields.word (c : CommandFields) : Word := c.rsv ++ BitVec.ofBool c.f ++ c.opc

/-- A command word is its three fields: no bit of it stands in none of them. -/
theorem word_commandFields (w : Word) : (commandFields w).word = w := by
  have hflag : BitVec.ofBool (w.getLsbD 8) = w.extractLsb' 8 1 := by
    ext i hi
    obtain rfl : i = 0 := by omega
    simp
  rw [CommandFields.word, commandFields, hflag, BitVec.extractLsb'_append_extractLsb'_eq_extractLsb' (by decide),
    BitVec.extractLsb'_append_extractLsb'_eq_extractLsb' (by decide), BitVec.extractLsb'_eq_self]

/-- The command of a row with the flag F (R81). -/
def OpcodeRow.command (r : OpcodeRow) (f : Bool) : Option Instr := if f then r.flagged else some r.plain

/-- A row found for an opcode is one of the map's, and it is that opcode's. -/
theorem opcodeRow_eq_some {o : BitVec 8} {r : OpcodeRow} (h : opcodeRow o = some r) : r ∈ opcodeMap ∧ r.opc = o :=
  ⟨List.mem_of_find?_eq_some h, by simpa using List.find?_some h⟩

/-- All a word that decodes can be: its reserved bits are 0, and its opcode's row holds the command for its flag. -/
theorem exists_row_of_decode {w : Word} {i : Instr} (h : decode w = .ok i) :
    ∃ r ∈ opcodeMap, r.command (commandFields w).f = some i ∧
      commandFields w = { opc := r.opc, f := (commandFields w).f, rsv := 0 } := by
  simp only [decode] at h
  split at h
  next hrsv =>
    have hclear : (commandFields w).rsv = 0 := by simpa [CommandFields.reservedClear] using hrsv
    split at h
    · cases h
    next r hrow =>
      obtain ⟨hmem, hopc⟩ := opcodeRow_eq_some hrow
      refine ⟨r, hmem, ?_, by rw [hopc, ← hclear]⟩
      split at h
      next hflag =>
        split at h
        · cases h
        next hflagged =>
          cases h
          rw [OpcodeRow.command, if_pos hflag, hflagged]
      next hflag =>
        cases h
        rw [OpcodeRow.command, if_neg hflag]
  next => cases h

/-- Each row's commands have in the opcode table the word of the row's opcode and of their flag (R81, R82). -/
theorem encode_of_row :
    ∀ r ∈ opcodeMap, ∀ f : Bool, ∀ i ∈ r.command f,
      encode i = CommandFields.word { opc := r.opc, f := f, rsv := 0 } := by
  decide

/-- The word of a command decodes to the command. -/
theorem decode_encode (i : Instr) : decode (encode i) = .ok i := by cases i <;> rfl

/-- A word that decodes to a command is the command's word of the opcode table: its fields are those of a row. -/
theorem eq_encode_of_decode {w : Word} {i : Instr} (h : decode w = .ok i) : w = encode i := by
  obtain ⟨r, hr, hcommand, hfields⟩ := exists_row_of_decode h
  rw [encode_of_row r hr (commandFields w).f i hcommand, ← hfields, word_commandFields]

/-- Settles O2: a word that decodes is rebuilt from its fields; the other way is the round trip of each command. -/
theorem decodeAndEncodeAgree : Obligations.DecodeAndEncodeAgree :=
  fun _ i => ⟨eq_encode_of_decode, fun h => h ▸ decode_encode i⟩

/-- Settles O1: each of the nine words is a command's own, and each of the other three breaks one rule of R80. -/
theorem writtenWordsDecode : Obligations.WrittenWordsDecode :=
  ⟨decode_encode .nop, decode_encode .sign, decode_encode .verifyW, decode_encode .unwrap, decode_encode .encchN,
    decode_encode .enctimeM, decode_encode .deccryptK, decode_encode .fragst, decode_encode .ptskey, rfl, rfl, rfl⟩

end Sys2Proof
end

section
/-! What a command's completion reads (R115): the registers, and nothing of the run they stand in. -/

namespace Sys2Proof.Machine

/-- The run a state stands in: what no command reads of it (R115), BUSY, DONE, PENDING and the model's own fields. -/
structure RunFields where
  busy : Bool
  done : Bool
  pending : Word
  inputs : List HostEvent
  latency : Nat
  issued : Nat
  draws : Nat
  answer : BusAnswer

/-- The same registers in another run. -/
def State.inRun (s : State) (f : RunFields) : State :=
  { s with busy := f.busy, done := f.done, pending := f.pending, inputs := f.inputs, latency := f.latency,
           issued := f.issued, draws := f.draws, answer := f.answer }

/-- The run a state stands in. -/
def State.run (s : State) : RunFields where
  busy := s.busy
  done := s.done
  pending := s.pending
  inputs := s.inputs
  latency := s.latency
  issued := s.issued
  draws := s.draws
  answer := s.answer

/-- What a completion makes of the run: BUSY falls and DONE rises (R112). -/
def RunFields.retire (f : RunFields) : RunFields := { f with busy := false, done := true }

/-- A body is a function of the registers: it makes of them in any run what it makes of them in one. -/
def OfRegisters (body : State → Except ErrorCode State) : Prop :=
  ∀ (s : State) (f : RunFields), body (s.inRun f) = (body s).map fun t => t.inRun f

section
variable (c : Cipher) (s : State) (f : RunFields) (bs : List Byte)

@[simp] theorem State.inRun_cmacKey : (s.inRun f).cmacKey = s.cmacKey := rfl
@[simp] theorem State.inRun_kwKey : (s.inRun f).kwKey = s.kwKey := rfl
@[simp] theorem State.inRun_len : (s.inRun f).len = s.len := rfl
@[simp] theorem State.inRun_message : (s.inRun f).message = s.message := rfl
@[simp] theorem State.inRun_windowMatch (enc : Block → Block) : (s.inRun f).windowMatch enc = s.windowMatch enc := rfl
@[simp] theorem State.inRun_writeReasm (a : Nat) : (s.inRun f).writeReasm a bs = (s.writeReasm a bs).inRun f := rfl
-- The two with `(rfl)` are rewritten with as equations: as definitional ones they would be checked again at the 16 bytes
-- of a block, by unfolding each byte's write.
@[simp] theorem State.inRun_writeBuf (a : Nat) : (s.inRun f).writeBuf a bs = (s.writeBuf a bs).inRun f := (rfl)
@[simp] theorem State.inRun_withLen (n : BitVec 7) :
    ({ s.inRun f with len := n } : State) = ({ s with len := n } : State).inRun f := (rfl)

theorem State.inRun_retire (e : ErrorCode) : (s.inRun f).retire e = (s.retire e).inRun f.retire := rfl

theorem cmacBody_ofRegisters : OfRegisters (cmacBody c) := by
  intro s f
  cases hk : s.cmacKey with
  | none => simp only [cmacBody, State.inRun_cmacKey, hk]; rfl
  | some k => simp only [cmacBody, State.inRun_cmacKey, hk, apply_ite (Except.map _)]; rfl

theorem signBody_ofRegisters : OfRegisters (signBody c) := by
  intro s f
  cases hk : s.cmacKey with
  | none => simp only [signBody, State.inRun_cmacKey, hk]; rfl
  | some k => simp only [signBody, State.inRun_cmacKey, hk, apply_ite (Except.map _)]; rfl

theorem verifyBody_ofRegisters : OfRegisters (verifyBody c) := by
  intro s f
  cases hk : s.cmacKey with
  | none => simp only [verifyBody, State.inRun_cmacKey, hk]; rfl
  | some k => simp only [verifyBody, State.inRun_cmacKey, hk, apply_ite (Except.map _)]; rfl

theorem verifyWBody_ofRegisters : OfRegisters (verifyWBody c) := by
  intro s f
  cases hk : s.cmacKey with
  | none => simp only [verifyWBody, State.inRun_cmacKey, hk]; rfl
  | some k =>
    cases hw : s.windowMatch (c.enc k) <;>
      (simp only [verifyWBody, State.inRun_cmacKey, State.inRun_windowMatch, hk, hw, apply_ite (Except.map _)]; rfl)

theorem gensubBody_ofRegisters : OfRegisters (gensubBody c) := by
  intro s f
  cases hk : s.cmacKey with
  | none => simp only [gensubBody, State.inRun_cmacKey, hk]; rfl
  | some k => simp only [gensubBody, State.inRun_cmacKey, State.inRun_writeBuf, State.inRun_withLen, hk]; rfl

theorem wrapBody_ofRegisters : OfRegisters (wrapBody c) := by
  intro s f
  cases hk : s.kwKey with
  | none => simp only [wrapBody, State.inRun_kwKey, hk]; rfl
  | some k =>
    simp only [wrapBody, State.inRun_kwKey, State.inRun_len, State.inRun_message, State.inRun_writeBuf,
      State.inRun_withLen, hk, apply_ite (Except.map _)]
    rfl

theorem unwrapBody_ofRegisters : OfRegisters (unwrapBody c) := by
  intro s f
  cases hk : s.kwKey with
  | none => simp only [unwrapBody, State.inRun_kwKey, hk]; rfl
  | some k =>
    simp only [unwrapBody, State.inRun_kwKey, State.inRun_len, State.inRun_message, State.inRun_writeBuf, hk,
      apply_ite (Except.map _)]
    rfl

theorem unwraprBody_ofRegisters : OfRegisters (unwraprBody c) := by
  intro s f
  cases hk : s.kwKey with
  | none => simp only [unwraprBody, State.inRun_kwKey, hk]; rfl
  | some k => simp only [unwraprBody, State.inRun_kwKey, hk, apply_ite (Except.map _)]; rfl

theorem encodeTo_inRun : encodeTo (s.inRun f) bs = (encodeTo s bs).map fun t => t.inRun f := by
  rw [encodeTo, encodeTo, apply_ite (Except.map _)]; rfl

theorem encodeForwarding_inRun :
    encodeForwarding (s.inRun f) bs = (encodeForwarding s bs).map fun t => t.inRun f := by
  rw [encodeForwarding, encodeForwarding, apply_ite (Except.map _)]; rfl

theorem buildBetween_inRun : buildBetween (s.inRun f) bs = (buildBetween s bs).map fun t => t.inRun f := by
  rw [buildBetween, buildBetween, apply_ite (Except.map _)]; rfl

theorem decodeAs_inRun (k : Option Kind) : decodeAs (s.inRun f) k = (decodeAs s k).map fun t => t.inRun f := by
  cases k with
  | none => rfl
  | some k => cases k <;> rfl

theorem deccryptBody_ofRegisters : OfRegisters deccryptBody := fun s f => decodeAs_inRun s f (s.cryptKind false)

theorem deccryptKBody_ofRegisters : OfRegisters deccryptKBody := fun s f => decodeAs_inRun s f (s.cryptKind true)

theorem decsig32Body_ofRegisters : OfRegisters decsig32Body := fun s f => decodeAs_inRun s f _

theorem decplainBody_ofRegisters : OfRegisters decplainBody := fun s f => decodeAs_inRun s f _

theorem dectimeBody_ofRegisters : OfRegisters dectimeBody := fun s f => decodeAs_inRun s f _

theorem encfragBody_ofRegisters : OfRegisters encfragBody := by
  intro s f
  simp only [encfragBody, apply_ite (Except.map _)]; rfl

theorem fragstBody_ofRegisters : OfRegisters fragstBody := by
  intro s f
  simp only [fragstBody, apply_ite (Except.map _)]; rfl

theorem rclrBody_ofRegisters : OfRegisters rclrBody := by
  intro s f
  simp only [rclrBody, State.inRun_writeReasm]
  rfl

theorem ptskeyBody_ofRegisters : OfRegisters ptskeyBody := by
  intro s f
  simp only [ptskeyBody, apply_ite (Except.map _)]; rfl

end

/-- The completion step of a body that is a function of the registers, in another run. -/
theorem complete_inRun {s t : State} {onError : State → State} {body : State → Except ErrorCode State}
    (hbody : OfRegisters body) (herr : ∀ f, onError (s.inRun f) = (onError s).inRun f) (f : RunFields)
    (h : complete s onError (body s) = .next t) :
    complete (s.inRun f) onError (body (s.inRun f)) = .next (t.inRun f.retire) := by
  rw [hbody s f]
  rcases complete_cases h with ⟨u, hu, rfl⟩ | ⟨c, hc, rfl⟩
  · rw [hu, ← State.inRun_retire]
    rfl
  · rw [hc, ← State.inRun_retire, ← herr]
    rfl

/-- Every command's completion is a function of the registers (R115): the one case split over the commands. -/
theorem exec_inRun {i : Instr} {s t : State} (h : exec i s = .next t) (f : RunFields) :
    exec i (s.inRun f) = .next (t.inRun f.retire) := by
  have herr : ∀ f, id (s.inRun f) = (id s).inRun f := fun _ => rfl
  cases i with
  | nop => exact complete_inRun (body := .ok) (fun _ _ => rfl) herr f h
  | cmac => exact complete_inRun (cmacBody_ofRegisters _) herr f h
  | sign => exact complete_inRun (signBody_ofRegisters _) herr f h
  | verify => exact complete_inRun (verifyBody_ofRegisters _) (fun _ => rfl) f h
  | verifyW => exact complete_inRun (verifyWBody_ofRegisters _) (fun _ => rfl) f h
  | gensub => exact complete_inRun (gensubBody_ofRegisters _) herr f h
  | wrap => exact complete_inRun (wrapBody_ofRegisters _) herr f h
  | unwrap => exact complete_inRun (unwrapBody_ofRegisters _) herr f h
  | unwrapr => exact complete_inRun (unwraprBody_ofRegisters _) herr f h
  | encrq => exact complete_inRun (body := encrqBody) (fun _ _ => encodeForwarding_inRun ..) herr f h
  | encch => exact complete_inRun (body := encchBody) (fun _ _ => encodeForwarding_inRun ..) herr f h
  | encchN => exact complete_inRun (body := encchNBody) (fun _ _ => encodeForwarding_inRun ..) herr f h
  | encfrag => exact complete_inRun encfragBody_ofRegisters herr f h
  | encack => exact complete_inRun (body := encackBody) (fun _ _ => encodeTo_inRun ..) herr f h
  | encsig16 => exact complete_inRun (body := encsig16Body) (fun _ _ => encodeTo_inRun ..) herr f h
  | encareq => exact complete_inRun (body := encareqBody) (fun _ _ => encodeTo_inRun ..) herr f h
  | encareqM => exact complete_inRun (body := encareqMBody) (fun _ _ => encodeTo_inRun ..) herr f h
  | encsig32 => exact complete_inRun (body := encsig32Body) (fun _ _ => rfl) herr f h
  | encplain => exact complete_inRun (body := encplainBody) (fun _ _ => rfl) herr f h
  | enctime => exact complete_inRun (body := enctimeBody) (fun _ _ => rfl) herr f h
  | enctimeM => exact complete_inRun (body := enctimeMBody) (fun _ _ => rfl) herr f h
  | deccrypt => exact complete_inRun deccryptBody_ofRegisters (fun _ => rfl) f h
  | deccryptK => exact complete_inRun deccryptKBody_ofRegisters (fun _ => rfl) f h
  | decsig32 => exact complete_inRun decsig32Body_ofRegisters (fun _ => rfl) f h
  | decplain => exact complete_inRun decplainBody_ofRegisters (fun _ => rfl) f h
  | dectime => exact complete_inRun dectimeBody_ofRegisters (fun _ => rfl) f h
  | fragst => exact complete_inRun fragstBody_ofRegisters (fun _ => rfl) f h
  | rclr => exact complete_inRun rclrBody_ofRegisters herr f h
  | ptsig16 => exact complete_inRun (body := ptsig16Body) (fun _ _ => buildBetween_inRun ..) herr f h
  | ptsig32 => exact complete_inRun (body := ptsig32Body) (fun _ _ => rfl) herr f h
  | ptack => exact complete_inRun (body := ptackBody) (fun _ _ => buildBetween_inRun ..) herr f h
  | ptareq => exact complete_inRun (body := ptareqBody) (fun _ _ => buildBetween_inRun ..) herr f h
  | pttime => exact complete_inRun (body := pttimeBody) (fun _ _ => rfl) herr f h
  | ptskey => exact complete_inRun ptskeyBody_ofRegisters herr f h

/-- A completion leaves its run but for BUSY and DONE (R112). -/
theorem inRun_of_exec {i : Instr} {s t : State} (h : exec i s = .next t) : t.inRun s.run.retire = t :=
  Host.Outcome.next.inj ((exec_inRun h s.run).symm.trans h)

end Sys2Proof.Machine
end

section
/-! The host-program lines `wr`, `wait` and `do` (R85, R86): the step of each, and the run of a command from its issue
to the read that shows it complete. -/

namespace Sys2Proof.Machine

section
variable {s : State} {i : Instr} {rest : List HostEvent}

/-- The line `wr` on an idle block writes its register (R85). -/
theorem step_wr {r : Reg} {v : Word} (hidle : s.busy = false) (hin : s.inputs = wr r v :: rest) :
    step s =
      .next { ({ s with inputs := rest, latency := s.latency - 1 } : State).writeReg r v with answer := .written } :=
  (idleWritesReachTheirRegister s _ _ v rest hidle hin (windowOffset_reg r) (accepted_reg r _) rfl).1 r rfl

/-- The line `wait` answers with STATUS and stays while the block is busy (R86). -/
theorem step_wait (hdue : s.busy = true → s.latency ≠ 0) (hin : s.inputs = waitLine :: rest) :
    step s = .next { s with answer := .data (s.readReg .status)
                            inputs := if s.busy then waitLine :: rest else rest
                            latency := s.latency - 1 } := by
  have hread : ({ s.tick with inputs := rest } : State).readReg .status = s.readReg .status := readReg_tick _
  rw [step_host (fun ⟨hb, hl⟩ => hdue hb hl) hin, waitLine, hostStep, State.waitRound_eq, hread]
  rfl

/-- The run in which the command `i` is in flight, issued on the block `s`. -/
def State.inFlight (s : State) (i : Instr) (rest : List HostEvent) (latency : Nat) (ans : BusAnswer) : RunFields where
  busy := true
  done := false
  pending := encode i
  inputs := rest
  latency := latency
  issued := s.issued + 1
  draws := s.draws
  answer := ans

/-- A mnemonic line on an idle block issues its command (R85, R110). -/
theorem step_issueLine (hidle : s.busy = false) (hin : s.inputs = issueLine i :: rest) :
    step s = .next (s.inRun (s.inFlight i rest (Config.cmdLatency s.issued) .written)) :=
  step_wr hidle hin

/-- `wait` polls through the latency of a command in flight, by induction on the steps left. -/
theorem run_wait (s : State) (i : Instr) (rest : List HostEvent) (n : Nat) (ans : BusAnswer) :
    ∃ ans', Sys2Proof.core.run n (s.inRun (s.inFlight i (waitLine :: rest) n ans)) =
      .next (s.inRun (s.inFlight i (waitLine :: rest) 0 ans')) := by
  induction n generalizing ans with
  | zero => exact ⟨ans, rfl⟩
  | succ n ih =>
    let u := s.inRun (s.inFlight i (waitLine :: rest) (n + 1) ans)
    have hstep : step u = .next (s.inRun (s.inFlight i (waitLine :: rest) n (.data (u.readReg .status)))) :=
      step_wait (fun _ => Nat.succ_ne_zero n) rfl
    obtain ⟨ans', hrun⟩ := ih (.data (u.readReg .status))
    exact ⟨ans', by rw [run_succ, hstep]; exact hrun⟩

end

/-- Settles O9: bit 0 of the value read is BUSY. -/
theorem waitPollsUntilTheBlockIsIdle : Obligations.WaitPollsUntilTheBlockIsIdle := by
  intro s rest hdue hin
  have hstep := step_wait hdue hin
  dsimp only
  rw [readReg_status_busy]
  constructor <;> intro hb <;> rw [hstep, hb] <;> rfl

/-- Settles O10: the issue, the polls of the latency, the completion, which reads the registers alone, and the last
poll. -/
theorem doRunsACommandToItsEnd : Obligations.DoRunsACommandToItsEnd := by
  intro s i rest hidle hin
  obtain ⟨t, ht⟩ := exists_exec_eq_next i s
  refine ⟨t.inRun s.run.retire, (inRun_of_exec ht).symm ▸ ht, ?_⟩
  have hissue := step_issueLine hidle hin
  obtain ⟨ans, hpolls⟩ := run_wait s i rest (Config.cmdLatency s.issued) .written
  have hdecode : decode (s.inRun (s.inFlight i (waitLine :: rest) 0 ans)).pending = .ok i := decode_encode i
  have hdue := (step_of_due rfl rfl hdecode).trans (exec_inRun ht _)
  have hlast := step_wait (s := t.inRun (s.inFlight i (waitLine :: rest) 0 ans).retire) (fun hb => by cases hb) rfl
  rw [run_succ, hissue]
  exact (run_succ_of_run ((run_succ_of_run hpolls).trans hdue)).trans hlast

end Sys2Proof.Machine
end

section
/-! The pseudo-instructions that write registers (R86): a run of `wr` lines is the writes of their registers in order,
and the words of a byte string written one after the other are its bytes, padded with zeros. -/

namespace Sys2Proof.Machine

/-! ## The words of a byte string -/

/-- Byte `k` of the integer a byte string stands for (R4), 0 above its end. -/
theorem ofNat_fromLE_div (bs : List Byte) (k : Nat) : BitVec.ofNat 8 (fromLE bs / 256 ^ k) = bs.getD k 0 := by
  induction bs generalizing k with
  | nil => simp [fromLE]
  | cons b bs ih =>
    have hb := b.isLt
    cases k with
    | zero =>
      apply BitVec.eq_of_toNat_eq
      simp only [fromLE, BitVec.toNat_ofNat, List.getD_cons_zero]
      omega
    | succ k =>
      have htail : fromLE (b :: bs) / 256 = fromLE bs := by
        rw [fromLE]
        omega
      rw [Nat.pow_succ', ← Nat.div_div_eq_div_mul, htail, ih, List.getD_cons_succ]

/-- A word of a byte string is the integer of its four bytes (R86). -/
theorem wordOf_toNat (bs : List Byte) (i : Nat) : (wordOf bs i).toNat = fromLE (slice bs (4 * i) (4 * i + 4)) := by
  have hlen : (slice bs (4 * i) (4 * i + 4)).length ≤ 4 := by
    simp only [slice, List.length_drop, List.length_take]
    omega
  exact Nat.mod_eq_of_lt (lt_of_lt_of_le (fromLE_lt _) (Nat.pow_le_pow_right (by decide) hlen))

/-- Byte `k` of word `i` of a byte string padded with zeros (R86). -/
theorem wordOf_byte (bs : List Byte) (i : Nat) {k : Nat} (hk : k < 4) :
    (wordOf bs i).extractLsb' (8 * k) 8 = bs.getD (4 * i + k) 0 := by
  rw [← byteAt_leBytes_toNat (wordOf bs i) hk, byteAt, leBytes_getD 4 _ k hk, wordOf_toNat, ofNat_fromLE_div]
  simp [slice, List.getD_eq_getElem?_getD, hk]

/-- Zeros after a byte string are what is read past its end. -/
theorem getD_append_zeros (bs : List Byte) (n i : Nat) : (bs ++ zeros n).getD i 0 = bs.getD i 0 := by
  rcases Nat.lt_or_ge i bs.length with h | h
  · exact List.getD_append _ _ _ _ h
  · rw [List.getD_append_right _ _ _ _ h, List.getD_eq_default _ _ h]
    simp only [zeros, List.getD_eq_getElem?_getD, List.getElem?_replicate]
    split <;> rfl

/-- The first `n` words of a byte string written from offset `a` upward, one after the other. -/
def Memory.writeWords (m : Memory) (a : Nat) (bs : List Byte) (n : Nat) : Memory :=
  (List.range n).foldl (fun m i => m.writeWord (a + 4 * i) (wordOf bs i)) m

theorem Memory.writeWords_succ (m : Memory) (a : Nat) (bs : List Byte) (n : Nat) :
    m.writeWords a bs (n + 1) = (m.writeWords a bs n).writeWord (a + 4 * n) (wordOf bs n) := by
  simp [Memory.writeWords, List.range_succ]

/-- What the words written make a byte read as: the string's byte, or 0 past its end, inside, what it was outside. -/
theorem Memory.read_writeWords (m : Memory) (a : Nat) (bs : List Byte) (n b : Nat) :
    (m.writeWords a bs n).read b = if a ≤ b ∧ b < a + 4 * n then bs.getD (b - a) 0 else m.read b := by
  induction n with
  | zero => 
    rw [if_neg (by omega)]
    rfl
  | succ n ih =>
    rw [Memory.writeWords_succ]
    by_cases hin : a + 4 * n ≤ b ∧ b < a + 4 * n + 4
    · obtain ⟨k, rfl⟩ := Nat.le.dest hin.1
      rw [read_writeWord _ _ _ (by omega), wordOf_byte bs n (by omega), if_pos (by omega)]
      congr 1
      omega
    · rw [sameOutside_writeWord _ _ _ b hin, ih]
      congr 1
      simp only [eq_iff_iff]
      omega

/-- The words written read back as the string's bytes, padded with zeros. -/
theorem Memory.readBytes_writeWords (m : Memory) (a : Nat) {bs : List Byte} {n : Nat} (h : bs.length ≤ 4 * n) :
    (m.writeWords a bs n).readBytes a (4 * n) = bs ++ zeros (4 * n - bs.length) := by
  apply List.ext_getElem
  · simp
    omega
  · intro i hi hi'
    rw [Memory.readBytes_length] at hi
    rw [← List.getD_eq_getElem _ 0, ← List.getD_eq_getElem _ 0, Memory.readBytes_getD _ _ _ _ hi,
      Memory.read_writeWords, if_pos (by omega), Nat.add_sub_cancel_left, getD_append_zeros]

theorem Memory.sameOutside_writeWords (m : Memory) (a : Nat) (bs : List Byte) (n : Nat) :
    m.sameOutside (m.writeWords a bs n) a (4 * n) := fun b hb => by
  rw [Memory.read_writeWords, if_neg hb]

/-! ## Lines of writes -/

/-- The same registers, with other accesses to come, another latency and another answer of the bus. -/
def State.onBus (s : State) (ins : List HostEvent) (latency : Nat) (ans : BusAnswer) : State :=
  { s with inputs := ins, latency := latency, answer := ans }

/-- A write that neither issues a command nor resets the block: the block stays idle. -/
def staysIdle (p : Reg × Word) : Prop := p.1 ≠ .cmd ∧ (p.1 = .ctrl → p.2.getLsbD 0 = false)

/-- The writes of registers `ws`, in order. -/
def State.writeRegs (s : State) (ws : List (Reg × Word)) : State := ws.foldl (fun t p => t.writeReg p.1 p.2) s

/-- The lines `wr` that write the registers `ws`. -/
def wrLines (ws : List (Reg × Word)) : List HostEvent := ws.map fun p => wr p.1 p.2

section
variable {s : State} {r : Reg} {v : Word}

/-- Such a write neither reads nor changes what is on the bus. -/
theorem writeReg_onBus (h : staysIdle (r, v)) (ins : List HostEvent) (latency : Nat) (ans : BusAnswer) :
    (s.onBus ins latency ans).writeReg r v = (s.writeReg r v).onBus ins latency ans := by
  obtain ⟨hcmd, hctrl⟩ := h
  cases r with
  | cmd => exact absurd rfl hcmd
  | ctrl =>
    have hsrst : v.getLsbD 0 = false := hctrl rfl
    simp only [State.writeReg, writeCtrl_of_no_srst _ hsrst]
    rfl
  | nodeCnt =>
    simp only [State.writeReg, State.writeNodeCnt]
    split <;> rfl
  | _ => rfl

/-- Such a write leaves BUSY. -/
theorem writeReg_busy (h : staysIdle (r, v)) : (s.writeReg r v).busy = s.busy := by
  obtain ⟨hcmd, hctrl⟩ := h
  cases r with
  | cmd => exact absurd rfl hcmd
  | ctrl => rw [State.writeReg, writeCtrl_of_no_srst _ (hctrl rfl)]
  | nodeCnt =>
    simp only [State.writeReg, State.writeNodeCnt]
    split <;> rfl
  | _ => rfl

/-- The line `wr` of such a write, on an idle block (R85). -/
theorem step_wr_onBus (h : staysIdle (r, v)) (hidle : s.busy = false) (rest : List HostEvent) (latency : Nat)
    (ans : BusAnswer) :
    step (s.onBus (wr r v :: rest) latency ans) = .next ((s.writeReg r v).onBus rest (latency - 1) .written) := by
  rw [step_wr (s := s.onBus (wr r v :: rest) latency ans) (rest := rest) hidle rfl]
  have hwrite := writeReg_onBus (s := s) h rest (latency - 1) ans
  exact congrArg (fun t : State => Host.Outcome.next { t with answer := .written }) hwrite

end

/-- A run of `wr` lines on an idle block is the writes of their registers, a step each (R85). -/
theorem run_wrLines {ws : List (Reg × Word)} (hws : ∀ p ∈ ws, staysIdle p) {s : State} (hidle : s.busy = false)
    (rest : List HostEvent) (latency : Nat) (ans : BusAnswer) :
    Sys2Proof.core.run ws.length (s.onBus (wrLines ws ++ rest) latency ans) =
      .next ((s.writeRegs ws).onBus rest (latency - ws.length) (if ws = [] then ans else .written)) := by
  induction ws generalizing s latency ans with
  | nil => rfl
  | cons p ws ih =>
    have hp : staysIdle p := hws p List.mem_cons_self
    have hstep := step_wr_onBus hp hidle (wrLines ws ++ rest) latency ans
    have hrest := ih (fun q hq => hws q (List.mem_cons_of_mem _ hq)) ((writeReg_busy hp).trans hidle) (latency - 1)
      .written
    rw [wrLines, List.map_cons, List.cons_append, ← wrLines, List.length_cons, run_succ, hstep, Nat.add_comm,
      ← Nat.sub_sub]
    simpa [State.writeRegs] using hrest

theorem State.writeRegs_append (s : State) (ws ws' : List (Reg × Word)) :
    s.writeRegs (ws ++ ws') = (s.writeRegs ws).writeRegs ws' := List.foldl_append

theorem wrLines_length (ws : List (Reg × Word)) : (wrLines ws).length = ws.length := List.length_map _

/-- The writes of the first `n` words of a byte string to the registers `reg 0` to `reg (n - 1)`. -/
def wordWrites (reg : Nat → Reg) (bs : List Byte) (n : Nat) : List (Reg × Word) :=
  (List.range n).map fun i => (reg i, wordOf bs i)

theorem wordWrites_length (reg : Nat → Reg) (bs : List Byte) (n : Nat) : (wordWrites reg bs n).length = n := by
  simp [wordWrites]

theorem staysIdle_wordWrites {reg : Nat → Reg} {bs : List Byte} {n : Nat} (hcmd : ∀ i, reg i ≠ .cmd)
    (hctrl : ∀ i, reg i ≠ .ctrl) : ∀ p ∈ wordWrites reg bs n, staysIdle p := by
  intro p hp
  obtain ⟨i, -, rfl⟩ := List.mem_map.1 hp
  exact ⟨hcmd i, fun h => absurd h (hctrl i)⟩

/-- Written to the words of one array, they are the words of the byte string in that array. -/
theorem writeRegs_wordWrites {reg : Nat → Reg} {a n : Nat} (s : State) (bs : List Byte)
    (hreg : ∀ i, i < n → ∀ (t : State) (v : Word),
      t.writeReg (reg i) v = { t with mem := t.mem.writeWord (a + 4 * i) v }) :
    s.writeRegs (wordWrites reg bs n) = { s with mem := s.mem.writeWords a bs n } := by
  induction n with
  | zero => rfl
  | succ n ih =>
    have hsucc : wordWrites reg bs (n + 1) = wordWrites reg bs n ++ [(reg n, wordOf bs n)] := by
      simp [wordWrites, List.range_succ]
    rw [hsucc, State.writeRegs_append, ih fun i hi => hreg i (Nat.lt_succ_of_lt hi), Memory.writeWords_succ]
    exact hreg n (Nat.lt_succ_self n) _ _

/-- KEYi by number. -/
def keyReg (i : Nat) : Reg := .key (Fin.ofNat 6 i)

/-- BUFi by number. -/
def bufReg (i : Nat) : Reg := .buf (Fin.ofNat 16 i)

/-- FRAME_Di by number. -/
def frameDReg (i : Nat) : Reg := .frameD (Fin.ofNat 2 i)

theorem writeReg_keyReg {i : Nat} (hi : i < 6) (t : State) (v : Word) :
    t.writeReg (keyReg i) v = { t with mem := t.mem.writeWord (keyBase + 4 * i) v } := by
  simp only [keyReg, State.writeReg, regOffset, Fin.ofNat, Nat.mod_eq_of_lt hi]

theorem writeReg_bufReg {i : Nat} (hi : i < 16) (t : State) (v : Word) :
    t.writeReg (bufReg i) v = { t with mem := t.mem.writeWord (bufBase + 4 * i) v } := by
  simp only [bufReg, State.writeReg, regOffset, Fin.ofNat, Nat.mod_eq_of_lt hi]

theorem writeReg_frameDReg {i : Nat} (hi : i < 2) (t : State) (v : Word) :
    t.writeReg (frameDReg i) v = { t with mem := t.mem.writeWord (frameBase + 4 * i) v } := by
  simp only [frameDReg, State.writeReg, regOffset, Fin.ofNat, Nat.mod_eq_of_lt hi]

/-! ## The pseudo-instructions -/

section
variable {s : State} {rest : List HostEvent}

/-- `ack` clears DONE and BUSYERR (R23, R86). -/
theorem run_ack (hidle : s.busy = false) :
    Sys2Proof.core.run 1 { s with inputs := ackLine :: rest } =
      .next { s with done := false, busyErr := false, inputs := rest, latency := s.latency - 1,
                     answer := .written } := by
  have hrun := run_wrLines (ws := [(.status, 0x00000042)]) (by simp [staysIdle]) hidle rest s.latency s.answer
  have hstatus : s.writeRegs [(.status, 0x00000042)] = { s with done := false, busyErr := false } := by
    simp [State.writeRegs, State.writeReg, State.writeStatus]
  rw [hstatus] at hrun
  exact hrun

/-- The key words and then CTRL without SRST: what both lengths of `wrkey` write (R86). -/
theorem run_wrkey (hidle : s.busy = false) {bs : List Byte} {n : Nat} (hn : n ≤ 6) (hbs : bs.length = 4 * n) {v : Word}
    (hv : v.getLsbD 0 = false) :
    ∃ t, Sys2Proof.core.run (n + 1) { s with inputs := wrLines (wordWrites keyReg bs n ++ [(.ctrl, v)]) ++ rest } =
        .next t ∧
      t = { s with ie := v.getLsbD 1, klen := v.extractLsb' 4 2, mem := t.mem, inputs := rest,
                   latency := s.latency - (n + 1), answer := .written } ∧
      t.keyArr bs.length = bs ∧ Memory.sameOutside s.mem t.mem 0x080 bs.length := by
  have hidles : ∀ p ∈ wordWrites keyReg bs n ++ [(.ctrl, v)], staysIdle p :=
    List.forall_mem_append.2 ⟨staysIdle_wordWrites (by simp [keyReg]) (by simp [keyReg]),
      List.forall_mem_singleton.2 ⟨nofun, fun _ => hv⟩⟩
  have hrun := run_wrLines hidles hidle rest s.latency s.answer
  rw [State.writeRegs_append, writeRegs_wordWrites s bs fun i hi => writeReg_keyReg (by omega), List.length_append,
    wordWrites_length, if_neg (by simp)] at hrun
  have hctrl : State.writeRegs { s with mem := s.mem.writeWords keyBase bs n } [(.ctrl, v)] =
      { s with mem := s.mem.writeWords keyBase bs n, ie := v.getLsbD 1, klen := v.extractLsb' 4 2 } :=
    writeCtrl_of_no_srst _ hv
  rw [hctrl] at hrun
  have hkey := s.mem.readBytes_writeWords keyBase hbs.le
  rw [hbs, Nat.sub_self, zeros, List.replicate_zero, List.append_nil] at hkey
  rw [hbs]
  exact ⟨_, hrun, rfl, hkey, s.mem.sameOutside_writeWords keyBase bs n⟩

/-- The frame's words after its identifier and its DLC (R86). -/
theorem run_wrframe (hidle : s.busy = false) (id dlc : Word) {bs : List Byte} (hbs : bs.length ≤ 8) :
    ∃ t, Sys2Proof.core.run 4 { s with inputs := wrframe id dlc bs ++ rest } = .next t ∧
      t = { s with frameId := CanId.ofWord id, frameDlc := dlc.extractLsb' 0 4, mem := t.mem, inputs := rest,
                   latency := s.latency - 4, answer := .written } ∧
      t.fbBytes 0 8 = bs ++ zeros (8 - bs.length) ∧ Memory.sameOutside s.mem t.mem 0x0B8 8 := by
  have hidles : ∀ p ∈ [(.frameId, id), (.frameDlc, dlc)] ++ wordWrites frameDReg bs 2, staysIdle p :=
    List.forall_mem_append.2 ⟨by simp [staysIdle], staysIdle_wordWrites (by simp [frameDReg]) (by simp [frameDReg])⟩
  have hrun := run_wrLines hidles hidle rest s.latency s.answer
  have hhead : s.writeRegs [(.frameId, id), (.frameDlc, dlc)] =
      { s with frameId := CanId.ofWord id, frameDlc := dlc.extractLsb' 0 4 } := by
    rw [← BitVec.setWidth_eq_extractLsb' (by decide)]
    rfl
  rw [State.writeRegs_append, hhead, writeRegs_wordWrites _ bs fun i hi => writeReg_frameDReg hi] at hrun
  exact ⟨_, hrun, rfl, s.mem.readBytes_writeWords frameBase hbs, s.mem.sameOutside_writeWords frameBase bs 2⟩

/-- The started words of the string, and then its length: the lines of `wrbuf` (R86). -/
theorem wrbuf_eq {bs : List Byte} (hbs : bs.length ≤ 64) :
    wrbuf bs = some (wrLines (wordWrites bufReg bs ((bs.length + 3) / 4) ++ [(.len, BitVec.ofNat 32 bs.length)])) := by
  rw [wrbuf, if_pos hbs, wrLines, List.map_append, wordWrites, List.map_map]
  rfl

theorem run_wrbuf (hidle : s.busy = false) {bs : List Byte} (hbs : bs.length ≤ 64) :
    ∃ lines t, wrbuf bs = some lines ∧
      Sys2Proof.core.run lines.length { s with inputs := lines ++ rest } = .next t ∧
      t = { s with len := BitVec.ofNat 7 bs.length, mem := t.mem, inputs := rest,
                   latency := s.latency - lines.length, answer := .written } ∧
      let size := 4 * ((bs.length + 3) / 4)
      t.bufBytes size = bs ++ zeros (size - bs.length) ∧ Memory.sameOutside s.mem t.mem 0x100 size := by
  let ws := wordWrites bufReg bs ((bs.length + 3) / 4)
  have hidles : ∀ p ∈ ws ++ [(.len, BitVec.ofNat 32 bs.length)], staysIdle p :=
    List.forall_mem_append.2
      ⟨staysIdle_wordWrites (by simp [bufReg]) (by simp [bufReg]), List.forall_mem_singleton.2 ⟨nofun, nofun⟩⟩
  have hrun := run_wrLines hidles hidle rest s.latency s.answer
  have hlen : (BitVec.ofNat 32 bs.length).setWidth 7 = BitVec.ofNat 7 bs.length :=
    BitVec.setWidth_ofNat_of_le (by decide) _
  have hwrites : s.writeRegs (ws ++ [(.len, BitVec.ofNat 32 bs.length)]) =
      { s with mem := s.mem.writeWords bufBase bs ((bs.length + 3) / 4), len := BitVec.ofNat 7 bs.length } := by
    rw [State.writeRegs_append, writeRegs_wordWrites s bs fun i hi => writeReg_bufReg (by omega), ← hlen]
    rfl
  rw [hwrites, ← wrLines_length, if_neg (by simp)] at hrun
  exact ⟨_, _, wrbuf_eq hbs, hrun, rfl, s.mem.readBytes_writeWords bufBase (by omega),
    s.mem.sameOutside_writeWords bufBase bs _⟩

/-- The bytes of the nonce that two words of a byte string make (R46). -/
theorem nonce_of_words {t : State} {bs : List Byte} (hbs : bs.length = 6) (h0 : t.fNonce0 = wordOf bs 0)
    (h1 : t.fNonce1 = (wordOf bs 1).setWidth 16) : t.nonce = bs := by
  have hlen : t.nonce.length = 6 := by simp [State.nonce]
  have hbyte : ∀ k, k < 6 → byteAt t.nonce k = bs.getD k 0 := by
    intro k hk
    rcases Nat.lt_or_ge k 4 with hlow | hhigh
    · rw [byteAt_nonce_low t hlow, h0, wordOf_byte bs 0 hlow, Nat.mul_zero, Nat.zero_add]
    · obtain ⟨j, rfl⟩ := Nat.le.dest hhigh
      rw [byteAt_nonce_high t (by omega), h1, BitVec.extractLsb'_setWidth_of_le (by omega), wordOf_byte bs 1 (by omega)]
  refine List.ext_getElem (hlen.trans hbs.symm) fun k hk hk' => ?_
  rw [← List.getD_eq_getElem _ 0, ← List.getD_eq_getElem _ 0]
  exact hbyte k (hlen ▸ hk)

theorem run_wrnonce (hidle : s.busy = false) {bs : List Byte} (hbs : bs.length = 6) :
    ∃ lines t, wrnonce bs = some lines ∧
      Sys2Proof.core.run lines.length { s with inputs := lines ++ rest } = .next t ∧
      t = { s with fNonce0 := t.fNonce0, fNonce1 := t.fNonce1, inputs := rest,
                   latency := s.latency - lines.length, answer := .written } ∧
      t.nonce = bs := by
  have hidles : ∀ p ∈ [(.fNonce0, wordOf bs 0), (.fNonce1, wordOf bs 1)], staysIdle p := by simp [staysIdle]
  have hrun := run_wrLines hidles hidle rest s.latency s.answer
  exact ⟨_, _, if_pos hbs, hrun, rfl, nonce_of_words hbs rfl rfl⟩

end

/-- The CTRL words of `wrkey`: the host's copy with the length code cleared, or set to 1 (R86). -/
theorem wrkeyCtrl_fields (ctrl : Word) :
    ((ctrl &&& ~~~0x30#32).getLsbD 0 = ctrl.getLsbD 0 ∧ (ctrl &&& ~~~0x30#32).getLsbD 1 = ctrl.getLsbD 1 ∧
        (ctrl &&& ~~~0x30#32).extractLsb' 4 2 = 0) ∧
      ((ctrl &&& ~~~0x30#32) ||| 0x10#32).getLsbD 0 = ctrl.getLsbD 0 ∧
        ((ctrl &&& ~~~0x30#32) ||| 0x10#32).getLsbD 1 = ctrl.getLsbD 1 ∧
        ((ctrl &&& ~~~0x30#32) ||| 0x10#32).extractLsb' 4 2 = 1 := by
  have hcleared : (ctrl &&& ~~~0x30#32).extractLsb' 4 2 = 0 := by
    rw [BitVec.extractLsb'_and]
    exact BitVec.and_zero
  refine ⟨⟨by simp, by simp, hcleared⟩, by simp, by simp, ?_⟩
  rw [BitVec.extractLsb'_or, hcleared]
  rfl

/-- Settles O21, one pseudo-instruction after the other. -/
theorem pseudoInstructionsLeaveWhatTheyName : Obligations.PseudoInstructionsLeaveWhatTheyName := by
  intro s rest hidle
  refine ⟨⟨_, run_ack hidle, rfl⟩, fun ctrl bs hsrst hlen => ?_, fun bs => run_wrbuf hidle, fun bs => run_wrnonce hidle,
    fun id dlc bs => run_wrframe hidle id dlc⟩
  obtain ⟨⟨hsrst0, hie0, hklen0⟩, hsrst1, hie1, hklen1⟩ := wrkeyCtrl_fields ctrl
  rcases hlen with h16 | h24
  · obtain ⟨t, hrun, ht, hkey⟩ := run_wrkey (n := 4) (rest := rest) hidle (by decide) h16 (hsrst0.trans hsrst)
    rw [hie0, hklen0] at ht
    exact ⟨_, t, if_pos h16, hrun, by rw [if_pos h16]; exact ht, hkey⟩
  · have hne : bs.length ≠ 16 := by omega
    obtain ⟨t, hrun, ht, hkey⟩ := run_wrkey (n := 6) (rest := rest) hidle (by decide) h24 (hsrst1.trans hsrst)
    rw [hie1, hklen1] at ht
    exact ⟨_, t, (if_neg hne).trans (if_pos h24), hrun, by rw [if_neg hne]; exact ht, hkey⟩

end Sys2Proof.Machine
end

section
/-! The formats read back (R87 to R97, R204): the frame an encoder leaves, as a payload that a block holds, and what the
decoders read of such a payload. -/

namespace Sys2Proof.Machine

/-- The block holds the frame of a payload: FRAME_DLC its length, FB its bytes and zeros after them (R87). -/
def State.HoldsFrame (r : State) (bs : List Byte) : Prop :=
  r.frameDlc = BitVec.ofNat 4 bs.length ∧ r.fbBytes 0 8 = bs ++ zeros (8 - bs.length)

/-! ## What an encoder leaves -/

section
variable {s t r : State} {bs : List Byte}

/-- Another block with the length and the bytes of a frame just emitted holds that frame. -/
theorem holdsFrame_of_emitFrame {id : CanId} (ht : t = (s.emitFrame id bs).retire .ok) (hlen : bs.length ≤ 8)
    (hdlc : r.frameDlc = t.frameDlc) (hfb : r.fbBytes 0 8 = t.fbBytes 0 8) : r.HoldsFrame bs := by
  subst ht
  have hread := Memory.readBytes_writeBytes_same s.mem frameBase (bs ++ zeros (8 - bs.length))
  rw [List.length_append, zeros_length, Nat.add_sub_cancel' hlen] at hread
  exact ⟨hdlc, hfb.trans hread⟩

/-- An encoder to one node that ended without an error emitted its frame (R170). -/
theorem emitted_of_encodeTo (h : complete s id (encodeTo s bs) = .next t) (hok : t.errCode = 0) :
    s.inRange s.fDst = true ∧ t = (s.emitFrame s.txid bs).retire .ok := by
  rcases encodeTo_cases s bs with ⟨hdst, he⟩ | ⟨-, he⟩ <;> rw [he] at h
  · exact ⟨hdst, (Host.Outcome.next.inj h).symm⟩
  · obtain rfl := Host.Outcome.next.inj h
    cases hok

/-- So did an encoder that forwards a NodeId (R170). -/
theorem emitted_of_encodeForwarding (h : complete s id (encodeForwarding s bs) = .next t) (hok : t.errCode = 0) :
    (s.inRange s.fDst = true ∧ s.inRange s.fFwd = true) ∧ t = (s.emitFrame s.txid bs).retire .ok := by
  rcases encodeForwarding_cases s bs with ⟨hin, he⟩ | ⟨-, he⟩ <;> rw [he] at h
  · exact ⟨hin, (Host.Outcome.next.inj h).symm⟩
  · obtain rfl := Host.Outcome.next.inj h
    cases hok

end

/-! ## What a decoder reads -/

/-- An integer of `n` bytes survives `LE_n` and `fromLE` (R4). -/
theorem ofNat_fromLE_leBytes_of_width {n : Nat} (v : BitVec (8 * n)) :
    BitVec.ofNat (8 * n) (fromLE (leBytes n v.toNat)) = v := by
  have hv : v.toNat < 256 ^ n := by
    have hlt := v.isLt
    rwa [Nat.pow_mul] at hlt
  rw [fromLE_leBytes, Nat.mod_eq_of_lt hv, BitVec.ofNat_toNat, BitVec.setWidth_eq]

/-- The low two bytes of a word, read back as a word (R93). -/
theorem ofNat_fromLE_leBytes_low (v : Word) :
    BitVec.ofNat 32 (fromLE (leBytes 2 v.toNat)) = (v.extractLsb' 0 16).setWidth 32 := by
  apply BitVec.eq_of_toNat_eq
  simp [fromLE_leBytes, BitVec.extractLsb'_toNat]

/-- The range check of a NodeId depends on NODECNT alone (R25). -/
theorem inRange_congr {s r : State} (h : r.nodeCnt = s.nodeCnt) (n : Byte) : r.inRange n = s.inRange n := by
  rw [State.inRange, State.inRange, h]

/-- A NodeId below 64 survives in the low six bits of byte 0 (R88). -/
theorem append_extractLsb'_of_lt {d : Byte} (h : d.toNat < 64) : (0#2 ++ d.extractLsb' 0 6 : Byte) = d := by
  apply BitVec.eq_of_toNat_eq
  rw [BitVec.toNat_append, BitVec.extractLsb'_toNat]
  simp
  omega

section
variable {s r : State} {bs : List Byte} {ty : BitVec 2}

/-- The length a decoder reads. -/
theorem State.HoldsFrame.dlc (h : r.HoldsFrame bs) (hlen : bs.length ≤ 8) : r.frameDlc.toNat = bs.length := by
  rw [h.1, BitVec.toNat_ofNat]
  omega

/-- The bytes a decoder reads are a slice of the padded payload. -/
theorem State.HoldsFrame.bytes (h : r.HoldsFrame bs) (a n : Nat) (hn : a + n ≤ 8) :
    r.fbBytes a n = slice (bs ++ zeros (8 - bs.length)) a (a + n) := by
  rw [← h.2]
  exact (slice_readBytes r.mem (frameBase + 0) 8 a n hn).symm

/-- One byte a decoder reads. -/
theorem State.HoldsFrame.byte (h : r.HoldsFrame bs) (i : Nat) (hi : i < 8) : r.fb i = bs.getD i 0 := by
  have hread := Memory.readBytes_getD r.mem (frameBase + 0) 8 i hi
  rw [← getD_append_zeros bs (8 - bs.length), ← h.2]
  exact hread.symm

/-- A word a decoder reads, where the payload has it. -/
theorem State.HoldsFrame.word (h : r.HoldsFrame bs) (a : Nat) (ha : a + 4 ≤ 8) {v : Word}
    (hv : slice (bs ++ zeros (8 - bs.length)) a (a + 4) = leBytes 4 v.toNat) : r.fbWord a = v := by
  rw [State.fbWord, h.bytes a 4 ha, hv, ofNat_fromLE_leBytes]

/-- Byte 0 of a crypt frame carries the type and the addressed node (R88). -/
theorem State.HoldsFrame.byte0 (h : r.HoldsFrame (s.byte0 ty :: bs)) (hdst : s.fDst.toNat < 64) :
    r.frameType = ty ∧ r.frameDst = s.fDst := by
  have h0 : r.fb 0 = s.byte0 ty := h.byte 0 (by decide)
  rw [State.frameType, State.frameDst, h0, State.byte0]
  constructor
  · rw [BitVec.extractLsb'_append_eq_of_le (by decide), BitVec.extractLsb'_eq_self]
  · rw [BitVec.extractLsb'_append_eq_of_add_le (by decide), BitVec.extractLsb'_eq_self, append_extractLsb'_of_lt hdst]

/-- DECCRYPT of a frame whose format it recognises (R205). -/
theorem exec_deccrypt_of_cryptKind {k : Kind} (h : r.cryptKind false = some k) :
    exec .deccrypt r = .next (((r.writeFields k).setKind k).retire .ok) :=
  complete_ok (by rw [deccryptBody, h]; rfl)

end

/-! ## The crypt frames -/

section
variable {s t r : State} (hs : s.Inv) (hcnt : r.nodeCnt = s.nodeCnt) (hdlc : r.frameDlc = t.frameDlc)
  (hfb : r.fbBytes 0 8 = t.fbBytes 0 8) (hok : t.errCode = 0)
include hs hcnt hdlc hfb

/-- A block that receives the crypt frame of an encoder reads its type and its addressed node, which is in range there
too (R88, R202). -/
theorem holdsFrame_of_crypt {ty : BitVec 2} {bs : List Byte} (hlen : bs.length ≤ 7) (hdst : s.inRange s.fDst = true)
    (ht : t = (s.emitFrame s.txid (s.byte0 ty :: bs)).retire .ok) :
    r.HoldsFrame (s.byte0 ty :: bs) ∧ r.frameType = ty ∧ r.frameDst = s.fDst ∧ r.inRange s.fDst = true := by
  have hr : r.HoldsFrame (s.byte0 ty :: bs) := holdsFrame_of_emitFrame ht (Nat.succ_le_succ hlen) hdlc hfb
  have hcount := hs.nodeCntLegal
  have hbelow := (s.inRange_iff _).1 hdst
  obtain ⟨hty, hto⟩ := hr.byte0 (by omega)
  exact ⟨hr, hty, hto, (inRange_congr hcnt _).trans hdst⟩

include hok

theorem holdsFrame_of_encodeTo {ty : BitVec 2} {bs : List Byte} (hlen : bs.length ≤ 7)
    (h : complete s id (encodeTo s (s.byte0 ty :: bs)) = .next t) :
    r.HoldsFrame (s.byte0 ty :: bs) ∧ r.frameType = ty ∧ r.frameDst = s.fDst ∧ r.inRange s.fDst = true := by
  obtain ⟨hdst, ht⟩ := emitted_of_encodeTo h hok
  exact holdsFrame_of_crypt hs hcnt hdlc hfb hlen hdst ht

theorem holdsFrame_of_encodeForwarding {ty : BitVec 2} {bs : List Byte} (hlen : bs.length ≤ 7)
    (h : complete s id (encodeForwarding s (s.byte0 ty :: bs)) = .next t) :
    (r.HoldsFrame (s.byte0 ty :: bs) ∧ r.frameType = ty ∧ r.frameDst = s.fDst ∧ r.inRange s.fDst = true) ∧
      r.inRange s.fFwd = true := by
  obtain ⟨⟨hdst, hfwd⟩, ht⟩ := emitted_of_encodeForwarding h hok
  exact ⟨holdsFrame_of_crypt hs hcnt hdlc hfb hlen hdst ht, (inRange_congr hcnt _).trans hfwd⟩

theorem deccrypt_of_encrq (h : exec .encrq s = .next t) :
    ∃ u, exec .deccrypt r = .next u ∧ u.kind = 1 ∧ u.fType = 0 ∧ u.fDst = s.fDst ∧ u.fFwd = s.fFwd := by
  obtain ⟨⟨hr, hty, hto, hdst⟩, hfwd⟩ := holdsFrame_of_encodeForwarding hs hcnt hdlc hfb hok (by simp) h
  have hlen : r.frameDlc.toNat = 2 := hr.dlc (by simp)
  have h1 : r.fb 1 = s.fFwd := hr.byte 1 (by decide)
  have hkind : r.cryptKind false = some .reqchal := by
    simp [State.cryptKind, hlen, hty, hto, hdst, h1, hfwd]
  exact ⟨_, exec_deccrypt_of_cryptKind hkind, rfl, hty, hto, h1⟩

theorem deccrypt_of_encch (h : exec .encch s = .next t) :
    ∃ u, exec .deccrypt r = .next u ∧ u.kind = 2 ∧ u.fType = 1 ∧ u.fDst = s.fDst ∧ u.fFwd = s.fFwd := by
  obtain ⟨⟨hr, hty, hto, hdst⟩, hfwd⟩ := holdsFrame_of_encodeForwarding hs hcnt hdlc hfb hok (by simp) h
  have hlen : r.frameDlc.toNat = 2 := hr.dlc (by simp)
  have h1 : r.fb 1 = s.fFwd := hr.byte 1 (by decide)
  have hkind : r.cryptKind false = some .chal := by
    simp [State.cryptKind, hlen, hty, hto, hdst, h1, hfwd]
  exact ⟨_, exec_deccrypt_of_cryptKind hkind, rfl, hty, hto, h1⟩

theorem deccrypt_of_encchN (h : exec .encchN s = .next t) :
    ∃ u, exec .deccrypt r = .next u ∧ u.kind = 3 ∧ u.fType = 1 ∧ u.fDst = s.fDst ∧ u.fFwd = s.fFwd ∧
        u.nonce = s.nonce := by
  obtain ⟨⟨hr, hty, hto, hdst⟩, hfwd⟩ := holdsFrame_of_encodeForwarding hs hcnt hdlc hfb hok (by simp [State.nonce]) h
  have hlen : r.frameDlc.toNat = 8 := hr.dlc (by simp [State.nonce])
  have h1 : r.fb 1 = s.fFwd := hr.byte 1 (by decide)
  have hnonce0 : r.fbWord 2 = s.fNonce0 := hr.word 2 (by decide) rfl
  have hnonce1 : BitVec.ofNat 16 (fromLE (r.fbBytes 6 2)) = s.fNonce1 := by
    rw [hr.bytes 6 2 (by decide)]
    exact ofNat_fromLE_leBytes_of_width (n := 2) s.fNonce1
  have hkind : r.cryptKind false = some .chalNonce := by
    simp [State.cryptKind, hlen, hty, hto, hdst, h1, hfwd]
  refine ⟨_, exec_deccrypt_of_cryptKind hkind, rfl, hty, hto, h1, ?_⟩
  rw [State.nonce, State.nonce, ← hnonce0, ← hnonce1]
  rfl

theorem deccrypt_of_encack (h : exec .encack s = .next t) :
    ∃ u, exec .deccrypt r = .next u ∧ u.kind = 5 ∧ u.fType = 2 ∧ u.fDst = s.fDst ∧ u.fMask = s.fMask ∧
      u.tag = s.tag := by
  obtain ⟨hr, hty, hto, hdst⟩ := holdsFrame_of_encodeTo hs hcnt hdlc hfb hok (by simp [State.tagBytes]) h
  have hlen : r.frameDlc.toNat = 8 := hr.dlc (by simp [State.tagBytes])
  have hmask : BitVec.ofNat 24 (fromLE (r.fbBytes 1 3)) = s.fMask := by
    rw [hr.bytes 1 3 (by decide)]
    exact ofNat_fromLE_leBytes_of_width (n := 3) s.fMask
  have htag : r.fbWord 4 = s.tag := hr.word 4 (by decide) rfl
  have hkind : r.cryptKind false = some .ack := by
    simp [State.cryptKind, hlen, hty, hto, hdst]
  exact ⟨_, exec_deccrypt_of_cryptKind hkind, rfl, hty, hto, hmask, htag⟩

theorem deccrypt_of_encsig16 (h : exec .encsig16 s = .next t) :
    ∃ u, exec .deccrypt r = .next u ∧ u.kind = 6 ∧ u.fType = 3 ∧ u.fDst = s.fDst ∧ u.fSignum = s.fSignum ∧
      u.fValue = (s.fValue.extractLsb' 0 16).setWidth 32 ∧ u.tag = s.tag := by
  obtain ⟨hr, hty, hto, hdst⟩ := holdsFrame_of_encodeTo hs hcnt hdlc hfb hok (by simp [State.tagBytes]) h
  have hlen : r.frameDlc.toNat = 8 := hr.dlc (by simp [State.tagBytes])
  have h1 : r.fb 1 = s.fSignum := hr.byte 1 (by decide)
  have hvalue : BitVec.ofNat 32 (fromLE (r.fbBytes 2 2)) = (s.fValue.extractLsb' 0 16).setWidth 32 := by
    rw [hr.bytes 2 2 (by decide)]
    exact ofNat_fromLE_leBytes_low s.fValue
  have htag : r.fbWord 4 = s.tag := hr.word 4 (by decide) rfl
  have hkind : r.cryptKind false = some .sig16 := by
    simp [State.cryptKind, hlen, hty, hto, hdst]
  exact ⟨_, exec_deccrypt_of_cryptKind hkind, rfl, hty, hto, h1, hvalue, htag⟩

theorem deccrypt_of_encareq (h : exec .encareq s = .next t) :
    ∃ u, exec .deccrypt r = .next u ∧ u.kind = 7 ∧ u.fType = 3 ∧ u.fDst = s.fDst ∧ u.fSignum = s.fSignum ∧
      u.fPresc = s.fPresc := by
  obtain ⟨hr, hty, hto, hdst⟩ := holdsFrame_of_encodeTo hs hcnt hdlc hfb hok (by simp) h
  have hlen : r.frameDlc.toNat = 3 := hr.dlc (by simp)
  have h1 : r.fb 1 = s.fSignum := hr.byte 1 (by decide)
  have h2 : r.fb 2 = s.fPresc := hr.byte 2 (by decide)
  have hkind : r.cryptKind false = some .areq := by
    simp [State.cryptKind, hlen, hty, hto, hdst]
  exact ⟨_, exec_deccrypt_of_cryptKind hkind, rfl, hty, hto, h1, h2⟩

theorem deccrypt_of_encareqM (h : exec .encareqM s = .next t) :
    ∃ u, exec .deccrypt r = .next u ∧ u.kind = 8 ∧ u.fType = 3 ∧ u.fDst = s.fDst ∧ u.fSignum = s.fSignum ∧
      u.fPresc = s.fPresc ∧ u.tag = s.tag := by
  obtain ⟨hr, hty, hto, hdst⟩ := holdsFrame_of_encodeTo hs hcnt hdlc hfb hok (by simp [State.tagBytes]) h
  have hlen : r.frameDlc.toNat = 7 := hr.dlc (by simp [State.tagBytes])
  have h1 : r.fb 1 = s.fSignum := hr.byte 1 (by decide)
  have h2 : r.fb 2 = s.fPresc := hr.byte 2 (by decide)
  have htag : r.fbWord 3 = s.tag := hr.word 3 (by decide) rfl
  have hkind : r.cryptKind false = some .areqMac := by
    simp [State.cryptKind, hlen, hty, hto, hdst]
  exact ⟨_, exec_deccrypt_of_cryptKind hkind, rfl, hty, hto, h1, h2, htag⟩

end

/-! ## The frames with an identifier of their own -/

section
variable {s t r : State} (hdlc : r.frameDlc = t.frameDlc) (hfb : r.fbBytes 0 8 = t.fbBytes 0 8)
include hdlc hfb

theorem decsig32_of_encsig32 (h : exec .encsig32 s = .next t) :
    ∃ u, exec .decsig32 r = .next u ∧ u.kind = 9 ∧ u.fValue = s.fValue ∧ u.tag = s.tag := by
  have hr : r.HoldsFrame (leBytes 4 s.fValue.toNat ++ s.tagBytes) :=
    holdsFrame_of_emitFrame (Host.Outcome.next.inj h).symm (by simp [State.tagBytes]) hdlc hfb
  have hlen : r.frameDlc.toNat = 8 := hr.dlc (by simp [State.tagBytes])
  have hbody : decsig32Body r = .ok ((r.writeFields .sig32).setKind .sig32) := by
    rw [decsig32Body, if_pos hlen]
    rfl
  exact ⟨_, complete_ok hbody, rfl, hr.word 0 (by decide) rfl, hr.word 4 (by decide) rfl⟩

theorem decplain_of_encplain (h : exec .encplain s = .next t) :
    ∃ u, exec .decplain r = .next u ∧ u.kind = 10 ∧ u.fValue = s.fValue := by
  have hr : r.HoldsFrame (leBytes 4 s.fValue.toNat) :=
    holdsFrame_of_emitFrame (Host.Outcome.next.inj h).symm (by simp) hdlc hfb
  have hlen : r.frameDlc.toNat = 4 := hr.dlc (by simp)
  have hbody : decplainBody r = .ok ((r.writeFields .plain).setKind .plain) := by
    rw [decplainBody, if_pos hlen]
    rfl
  exact ⟨_, complete_ok hbody, rfl, hr.word 0 (by decide) rfl⟩

theorem dectime_of_enctime (h : exec .enctime s = .next t) :
    ∃ u, exec .dectime r = .next u ∧ u.kind = 11 ∧ u.fTime = s.fTime := by
  have hr : r.HoldsFrame (leBytes 4 s.fTime.toNat) :=
    holdsFrame_of_emitFrame (Host.Outcome.next.inj h).symm (by simp) hdlc hfb
  have hlen : r.frameDlc.toNat = 4 := hr.dlc (by simp)
  have hbody : dectimeBody r = .ok ((r.writeFields .time).setKind .time) := by
    rw [dectimeBody, if_pos hlen]
    rfl
  exact ⟨_, complete_ok hbody, rfl, hr.word 0 (by decide) rfl⟩

theorem dectime_of_enctimeM (h : exec .enctimeM s = .next t) :
    ∃ u, exec .dectime r = .next u ∧ u.kind = 12 ∧ u.fTime = s.fTime ∧ u.tag = s.tag := by
  have hr : r.HoldsFrame (leBytes 4 s.fTime.toNat ++ s.tagBytes) :=
    holdsFrame_of_emitFrame (Host.Outcome.next.inj h).symm (by simp [State.tagBytes]) hdlc hfb
  have hlen : r.frameDlc.toNat = 8 := hr.dlc (by simp [State.tagBytes])
  have hbody : dectimeBody r = .ok ((r.writeFields .timeMac).setKind .timeMac) := by
    rw [dectimeBody, if_neg (by omega), if_pos hlen]
    rfl
  exact ⟨_, complete_ok hbody, rfl, hr.word 0 (by decide) rfl, hr.word 4 (by decide) rfl⟩

end

/-- Settles O53, format by format. -/
theorem decodersReadBackEncodedFrames : Obligations.DecodersReadBackEncodedFrames := by
  intro s t r hs hcnt hdlc hfb hok
  exact ⟨deccrypt_of_encrq hs hcnt hdlc hfb hok, deccrypt_of_encch hs hcnt hdlc hfb hok,
    deccrypt_of_encchN hs hcnt hdlc hfb hok, deccrypt_of_encack hs hcnt hdlc hfb hok,
    deccrypt_of_encsig16 hs hcnt hdlc hfb hok, deccrypt_of_encareq hs hcnt hdlc hfb hok,
    deccrypt_of_encareqM hs hcnt hdlc hfb hok, decsig32_of_encsig32 hdlc hfb, decplain_of_encplain hdlc hfb,
    dectime_of_enctime hdlc hfb, dectime_of_enctimeM hdlc hfb⟩

end Sys2Proof.Machine
end

section
/-! The issue of a command (R110), the step that completes it (R112), NOP (R116), and what a completion reads (R115). -/

namespace Sys2Proof.Machine

/-- The step of a word that is due and names no command ends in ILLEGAL (R112, R261). -/
theorem step_of_due_illegal {s : State} {e : DecodeError} (hb : s.busy = true) (hl : s.latency = 0)
    (he : decode s.pending = .error e) : step s = .next (s.retire .illegal) := by
  have hstep : step s = completeIllegal s := by simp [step, completionStep, hb, hl, he]
  exact hstep

/-- A word with a bit of `[31:9]` set names no command (R80). -/
theorem decode_of_reservedBits {w : Word} (h : w.extractLsb' 9 23 ≠ 0) : decode w = .error .reservedBits := by
  have hclear : (commandFields w).reservedClear = false := by
    simpa [CommandFields.reservedClear, commandFields] using h
  simp [decode, hclear]

/-- Settles O4: a completion that is due is the step, whatever `i.wf` says. -/
theorem stepRunsTheDecodedCommand : Obligations.StepRunsTheDecodedCommand :=
  fun _ _ hb hl hi _ => step_of_due hb hl hi

/-- Settles O5: the step is the write of CMD, which issues the command; DONE being clear, the line is low. -/
theorem issueTakesTheCommandWord : Obligations.IssueTakesTheCommandWord := by
  intro s a w rest hidle hin hoff hacc hop
  have hstep := (idleWritesReachTheirRegister s a 0x00C w rest hidle hin hoff hacc hop).1 .cmd rfl
  exact ⟨_, hstep, rfl, rfl⟩

/-- Settles O32: NOP's one word is the opcode table's; a word with F = 1 for opcode 0, or with a reserved bit set, names
no command. -/
theorem nopOnlyCompletes : Obligations.NopOnlyCompletes := by
  refine ⟨fun _ => rfl, fun w => decodeAndEncodeAgree w .nop, fun s hb hl hw => ?_⟩
  rcases hw with hflag | hrsv
  · have hillegal : decode s.pending = .error .flagNotDefined := by rw [hflag]; rfl
    exact step_of_due_illegal hb hl hillegal
  · exact step_of_due_illegal hb hl (decode_of_reservedBits hrsv)

/-- Settles O11: a completion is a function of the registers, and BUSY and DONE are the same after any. -/
theorem completionIsAFunctionOfTheRegisters : Obligations.CompletionIsAFunctionOfTheRegisters := by
  intro i s t b dn p ins l n d an h
  obtain ⟨u, c, -, rfl⟩ := exec_leaves h
  exact exec_inRun h ⟨b, dn, p, ins, l, n, d, an⟩

end Sys2Proof.Machine
end

section
/-! What the host's writes do while a command is in flight (R118), and how BUSYERR falls. -/

namespace Sys2Proof.Machine

/-- The writes that can clear BUSYERR: of STATUS with bit 6 set, and of CTRL with SRST set. -/
def clearsBusyErr (off : Nat) (v : Word) : Prop :=
  (off = 0x008 ∧ v.getLsbD 6 = true) ∨ (off = 0x004 ∧ v.getLsbD 0 = true)

section
variable {s t : State} {off : Nat} {v : Word}

theorem clearsBusyErr_of_writeStatus (hs : s.busyErr = true) (ht : (s.writeStatus v).busyErr = false) :
    clearsBusyErr 0x008 v :=
  .inl ⟨rfl, by simpa [hs] using ht⟩

/-- A write of NODECNT, taken or ignored, leaves BUSYERR (R25). -/
theorem writeNodeCnt_busyErr (s : State) (v : Word) : (s.writeNodeCnt v).busyErr = s.busyErr := by
  unfold State.writeNodeCnt
  split <;> rfl

theorem clearsBusyErr_of_writeReg {r : Reg} (hs : s.busyErr = true) (ht : (s.writeReg r v).busyErr = false) :
    clearsBusyErr (regOffset r) v := by
  cases r with
  | status => exact clearsBusyErr_of_writeStatus hs ht
  | ctrl =>
    by_cases hv : v.getLsbD 0 = true
    · exact .inr ⟨rfl, hv⟩
    · rw [State.writeReg, State.writeCtrl, if_neg hv] at ht
      cases hs.symm.trans ht
  | nodeCnt => cases hs.symm.trans ((writeNodeCnt_busyErr s v).symm.trans ht)
  | _ => cases hs.symm.trans ht

theorem clearsBusyErr_of_writeIdle (hs : s.busyErr = true) (ht : (s.writeIdle off v).busyErr = false) :
    clearsBusyErr off v := by
  unfold State.writeIdle at ht
  split at ht
  next r hr => exact regOffset_of_regAt hr ▸ clearsBusyErr_of_writeReg hs ht
  next => cases hs.symm.trans ht

theorem clearsBusyErr_of_writeBusy (hs : s.busyErr = true) (ht : (s.writeBusy off v).busyErr = false) :
    clearsBusyErr off v := by
  rcases writeBusy_cases s off v with ⟨rfl, h⟩ | ⟨hsrst, -⟩ | ⟨-, h⟩
  · exact clearsBusyErr_of_writeStatus hs (h ▸ ht)
  · exact .inr hsrst
  · rw [h] at ht
    cases ht

theorem busRead_busyErr (s : State) (off : Nat) : (s.busRead off).busyErr = s.busyErr := by
  rcases busRead_cases s off with ⟨-, h⟩ | ⟨-, h⟩ <;> rw [h]

/-- Only an accepted write can clear BUSYERR. -/
theorem clearsBusyErr_of_windowAccess {a : HostAccess} (hs : s.busyErr = true)
    (ht : (s.windowAccess a off).busyErr = false) : ∃ v, a.op = .write v ∧ clearsBusyErr off v := by
  rcases windowAccess_cases s a off with ⟨-, h⟩ | ⟨-, -, h⟩ | ⟨v, -, hop, h⟩ <;> rw [h] at ht
  · cases hs.symm.trans ht
  · rw [busRead_busyErr] at ht
    cases hs.symm.trans ht
  · refine ⟨v, hop, ?_⟩
    unfold State.busWrite at ht
    split at ht
    · exact clearsBusyErr_of_writeBusy hs ht
    · exact clearsBusyErr_of_writeIdle hs ht

/-- The events that can clear BUSYERR: the reset input, and a write that clears it. -/
theorem event_of_busyErr_falls {e : HostEvent} (h : hostStep s e = .next t) (hs : s.busyErr = true)
    (ht : t.busyErr = false) :
    e = .resetInput ∨ ∃ a v, e = .access a ∧ a.op = .write v ∧
      ((windowOffset a.addr = some 0x008 ∧ v.getLsbD 6 = true) ∨
        (windowOffset a.addr = some 0x004 ∧ v.getLsbD 0 = true)) := by
  rcases hostStep_cases h with ⟨a, off, rfl, hoff, rfl⟩ | ⟨rfl, -⟩ | ⟨-, rfl⟩
  · obtain ⟨v, hop, ⟨rfl, hv⟩ | ⟨rfl, hv⟩⟩ := clearsBusyErr_of_windowAccess hs ht
    · exact .inr ⟨a, v, rfl, hop, .inl ⟨hoff, hv⟩⟩
    · exact .inr ⟨a, v, rfl, hop, .inr ⟨hoff, hv⟩⟩
  · exact .inl rfl
  · rw [State.waitRound_eq] at ht
    cases hs.symm.trans ht

/-- No completion changes BUSYERR, of an illegal word or of a command (R118). -/
theorem step_of_due_busyErr (h : step s = .next t) (hb : s.busy = true) (hl : s.latency = 0) :
    t.busyErr = s.busyErr := by
  cases hw : decode s.pending with
  | ok i =>
    obtain ⟨-, -, -, -, -, hkept⟩ := whoWritesTheStatusFields i s t (step_of_due hb hl hw ▸ h)
    exact hkept
  | error e =>
    obtain rfl : s.retire .illegal = t := Host.Outcome.next.inj ((step_of_due_illegal hb hl hw).symm.trans h)
    rfl

/-- BUSYERR falls in a step only by the event performed in it. -/
theorem exists_event_of_busyErr_falls (h : step s = .next t) (hs : s.busyErr = true) (ht : t.busyErr = false) :
    ∃ e rest, s.inputs = e :: rest ∧ hostStep { s.tick with inputs := rest } e = .next t := by
  by_cases hdue : s.busy = true ∧ s.latency = 0
  · rw [step_of_due_busyErr h hdue.1 hdue.2, hs] at ht
    cases ht
  · rcases step_cases h with ⟨hb, hl, -⟩ | ⟨hb, hl, -⟩ | ⟨-, ⟨-, rfl⟩ | hevent⟩
    · exact absurd ⟨hb, hl⟩ hdue
    · exact absurd ⟨hb, hl⟩ hdue
    · cases hs.symm.trans ht
    · exact hevent

/-- The step of a write while BUSY = 1. -/
theorem step_write_busy {a : HostAccess} {rest : List HostEvent} (hb : s.busy = true) (hl : s.latency ≠ 0)
    (hin : s.inputs = .access a :: rest) (hoff : windowOffset a.addr = some off) (hacc : a.accepted = true)
    (hop : a.op = .write v) :
    step s = .next { ({ s.tick with inputs := rest } : State).writeBusy off v with answer := .written } := by
  have hb' : s.tick.busy = true := hb
  rw [step_access (fun _ => hl) hin hoff, windowAccess_write hacc hop, State.busWrite, if_pos hb']

end

/-- Settles O6: the clauses of a write are those of `writeBusy`; BUSYERR falls only by an event that clears it. -/
theorem writesWhileBusy : Obligations.WritesWhileBusy := by
  refine ⟨fun s a off v rest hb hl hin hoff hacc hop => ?_, fun s t => step_of_due_busyErr, fun s t h hs ht => ?_⟩
  · rw [step_write_busy hb hl hin hoff hacc hop]
    rcases writeBusy_cases { s.tick with inputs := rest } off v with ⟨rfl, h⟩ | ⟨⟨rfl, hv⟩, h⟩ | ⟨⟨hst, hsrst⟩, h⟩ <;>
      rw [h]
    · exact ⟨fun _ => rfl, fun ⟨hctrl, _⟩ => (by cases hctrl), fun ⟨hst, _⟩ => absurd rfl hst⟩
    · exact ⟨fun hst => (by cases hst), fun _ => rfl, fun ⟨_, hsrst⟩ => absurd ⟨rfl, hv⟩ hsrst⟩
    · exact ⟨fun h => absurd h hst, fun h => absurd h hsrst, fun _ => rfl⟩
  · obtain ⟨e, rest, hin, he⟩ := exists_event_of_busyErr_falls h hs ht
    exact ⟨e, rest, hin, event_of_busyErr_falls he hs ht⟩

end Sys2Proof.Machine
end

section
/-! How a command ends, by the spec's tables: the registers it keeps (10_state.md section 2), the codes it can raise
(R260), and what a failed one clears (R114). One lemma a body says the first two together; `exec_eq_complete` is the one
case split over the commands. -/

namespace Sys2Proof.Machine

/-- What only the host writes, and PENDING (10_state.md section 2, R48). -/
def State.hostFields (s : State) : Byte × CanId × CanId × Word × BitVec 7 × Bool × BitVec 2 × Word :=
  (s.fSrc, s.fCanid, s.txid, s.time, s.nodeCnt, s.ie, s.klen, s.pending)

/-- `u` has every register command `i` may not write as `s` has it: each register that reads, STATUS apart, the key
array, and what only the host writes. -/
structure State.Keeps (s : State) (i : Instr) (u : State) : Prop where
  reads : ∀ r, r ≠ .status → mayWrite i r = false → u.readReg r = s.readReg r
  key : ∀ a, 0x080 ≤ a → a < 0x098 → u.mem.read a = s.mem.read a
  host : u.hostFields = s.hostFields

/-- A body ends as the tables say of command `i`: it keeps what `i` may not write, or raises a code listed for `i`. -/
def EndsAs (i : Instr) (s : State) : Except ErrorCode State → Prop
  | .ok u => s.Keeps i u
  | .error c => c ∈ possibleErrors i

/-! ## What each write of the state keeps -/

theorem readWord_writeBytes_out (m : Memory) {a b : Nat} {bs : List Byte} (h : b + 4 ≤ a ∨ a + bs.length ≤ b) :
    (m.writeBytes a bs).readWord b = m.readWord b := by
  rw [Memory.readWord, Memory.readBytes_writeBytes_out m a b 4 bs h, Memory.readWord]

section
variable {s u v : State} {i : Instr} {a b : Except ErrorCode State} {bs : List Byte}

theorem State.Keeps.refl (s : State) (i : Instr) : s.Keeps i s := ⟨fun _ _ _ => rfl, fun _ _ _ => rfl, rfl⟩

theorem State.Keeps.trans (h : s.Keeps i u) (h' : u.Keeps i v) : s.Keeps i v where
  reads r hst hr := (h'.reads r hst hr).trans (h.reads r hst hr)
  key a hlow hhigh := (h'.key a hlow hhigh).trans (h.key a hlow hhigh)
  host := h'.host.trans h.host

/-- The fields of STATUS are no other register's. -/
theorem keeps_statusFields (i : Instr) (busy done matched : Bool) (mofs : BitVec 2) (errCode : BitVec 8)
    (rmap : BitVec 6) (kind : BitVec 4) :
    s.Keeps i { s with busy := busy, done := done, matched := matched, mofs := mofs, errCode := errCode,
                       rmap := rmap, kind := kind } where
  reads r hst _ := by
    cases r with
    | status => exact absurd rfl hst
    | _ => rfl
  key _ _ _ := rfl
  host := rfl

/-- A byte string written inside an array, whose words are registers the command may write. -/
theorem keeps_writeArray {n base off : Nat} (word : Fin n → Reg) (hword : ∀ k, regOffset (word k) = base + 4 * k.val)
    (hmay : ∀ k, mayWrite i (word k) = true) (hbase : base % 4 = 0) (hkey : 0x098 ≤ base) (hlow : base ≤ off)
    (hhigh : off + bs.length ≤ base + 4 * n) : s.Keeps i { s with mem := s.mem.writeBytes off bs } where
  reads r _ hr := by
    have hout : regOffset r + 4 ≤ off ∨ off + bs.length ≤ regOffset r := by
      by_contra hin
      have h4 := regOffset_aligned r
      have hk : (regOffset r - base) / 4 < n := by omega
      have hoff := hword ⟨_, hk⟩
      have hreg : word ⟨_, hk⟩ = r := regOffset_injective (by rw [hoff]; dsimp only; omega)
      cases hr.symm.trans (hreg ▸ hmay ⟨_, hk⟩)
    cases r with
    | mac | frameD | buf | reasm => exact readWord_writeBytes_out s.mem hout
    | _ => rfl
  key b _ hb := Memory.read_writeBytes_out _ _ _ _ (.inl (by omega))
  host := rfl

theorem keeps_writeMac (hi : mayWrite i (.mac 0) = true) (hlen : bs.length ≤ 16) : s.Keeps i (s.writeMac bs) :=
  keeps_writeArray .mac (fun _ => rfl) (fun _ => hi) (by decide) (by decide) (Nat.le_refl macBase) (by omega)

theorem keeps_writeBuf (hi : mayWrite i .len = true) {off : Nat} (hlen : off + bs.length ≤ 64) :
    s.Keeps i (s.writeBuf off bs) :=
  keeps_writeArray .buf (fun _ => rfl) (fun _ => hi) (by decide) (by decide) (Nat.le_add_right bufBase _) (by omega)

theorem keeps_writeReasm (hi : mayWrite i (.reasm 0) = true) {off : Nat} (hlen : off + bs.length ≤ 32) :
    s.Keeps i (s.writeReasm off bs) :=
  keeps_writeArray .reasm (fun _ => rfl) (fun _ => hi) (by decide) (by decide) (Nat.le_add_right reasmBase _)
    (by omega)

theorem keeps_writeFrame (hi : mayWrite i .frameId = true) (hlen : bs.length ≤ 8) :
    s.Keeps i { s with mem := s.mem.writeBytes frameBase bs } :=
  keeps_writeArray .frameD (fun _ => rfl) (fun _ => hi) (by decide) (by decide) (Nat.le_refl frameBase) (by omega)

theorem of_not_mayWrite {p : Prop} {r : Reg} (h : p ∨ mayWrite i r = true) (hr : mayWrite i r = false) : p :=
  h.resolve_right (Bool.eq_false_iff.1 hr)

/-- The operand registers besides the arrays, each written only where the command may write it. -/
theorem keeps_operands {len : BitVec 7} {tpos : BitVec 6} {tag : Word} {id : CanId} {dlc : BitVec 4}
    (hlen : len = s.len ∨ mayWrite i .len = true) (htpos : tpos = s.tpos ∨ mayWrite i .tpos = true)
    (htag : tag = s.tag ∨ mayWrite i .tag = true)
    (hframe : (id = s.frameId ∧ dlc = s.frameDlc) ∨ mayWrite i .frameId = true) :
    s.Keeps i { s with len := len, tpos := tpos, tag := tag, frameId := id, frameDlc := dlc } where
  reads r _ hr := by
    cases r with
    | len => exact congrArg (BitVec.setWidth 32) (of_not_mayWrite hlen hr)
    | tpos => exact congrArg (BitVec.setWidth 32) (of_not_mayWrite htpos hr)
    | tag => exact of_not_mayWrite htag hr
    | frameId => exact congrArg CanId.toWord (of_not_mayWrite hframe hr).1
    | frameDlc => exact congrArg (BitVec.setWidth 32) (of_not_mayWrite hframe hr).2
    | _ => rfl
  key _ _ _ := rfl
  host := rfl

/-- The registers a decoder writes for each format (R204). -/
def formatRegs : Kind → List Reg
  | .none => []
  | .reqchal | .chal => [.fType, .fDst, .fFwd]
  | .chalNonce => [.fType, .fDst, .fFwd, .fNonce0, .fNonce1]
  | .frag => [.fType, .fDst, .fFrag]
  | .ack => [.fType, .fDst, .fMask, .tag]
  | .sig16 => [.fType, .fDst, .fSignum, .fValue, .tag]
  | .areq => [.fType, .fDst, .fSignum, .fPresc]
  | .areqMac => [.fType, .fDst, .fSignum, .fPresc, .tag]
  | .sig32 => [.fValue, .tag]
  | .plain => [.fValue]
  | .time => [.fTime]
  | .timeMac => [.fTime, .tag]

/-- A decoder writes its format's registers and no other. -/
theorem readReg_writeFields_of_not_mem {k : Kind} {r : Reg} (hr : r ∉ formatRegs k) :
    (s.writeFields k).readReg r = s.readReg r := by
  cases r with
  | fType | fDst | fFwd | fFrag | fSignum | fPresc | fValue | fMask | fTime | fNonce0 | fNonce1 | tag =>
    cases k <;> simp [formatRegs] at hr <;> rfl
  | _ => rw [writeFields_frame]; rfl

/-- The field writes of a decoder, in a command that may write the format's registers. -/
theorem keeps_writeFields {k : Kind} (hk : ∀ r ∈ formatRegs k, mayWrite i r = true) : s.Keeps i (s.writeFields k) where
  reads r _ hr := readReg_writeFields_of_not_mem fun hmem => by cases hr.symm.trans (hk r hmem)
  key _ _ _ := by rw [writeFields_mem]
  host := by rw [writeFields_frame]; rfl

/-! ## How each body ends -/

theorem endsAs_ite {p : Prop} [Decidable p] (ha : p → EndsAs i s a) (hb : ¬ p → EndsAs i s b) :
    EndsAs i s (if p then a else b) := by
  split
  · next h => exact ha h
  · next h => exact hb h

theorem endsAs_ok (h : s.Keeps i u) : EndsAs i s (.ok u) := h

theorem endsAs_error {c : ErrorCode} (h : c ∈ possibleErrors i) : EndsAs i s (.error c) := h

theorem cmacBody_endsAs (c : Cipher) (s : State) : EndsAs .cmac s (cmacBody c s) := by
  unfold cmacBody
  split
  · exact endsAs_error (by decide)
  · exact endsAs_ite (fun _ => endsAs_error (by decide)) fun _ =>
      endsAs_ok (keeps_writeMac rfl (cmacBytes_length _ _).le)

theorem signBody_endsAs (c : Cipher) (s : State) : EndsAs .sign s (signBody c s) := by
  unfold signBody
  split
  · exact endsAs_error (by decide)
  · exact endsAs_ite (fun _ => endsAs_error (by decide)) fun _ =>
      endsAs_ok ((keeps_writeMac rfl (cmacBytes_length _ _).le).trans
        (keeps_operands (.inl rfl) (.inl rfl) (.inr rfl) (.inl ⟨rfl, rfl⟩)))

theorem verifyBody_endsAs (c : Cipher) (s : State) : EndsAs .verify s (verifyBody c s) := by
  unfold verifyBody
  split
  · exact endsAs_error (by decide)
  · exact endsAs_ite (fun _ => endsAs_error (by decide)) fun _ => endsAs_ok (keeps_statusFields ..)

theorem verifyWBody_endsAs (c : Cipher) (s : State) : EndsAs .verifyW s (verifyWBody c s) := by
  unfold verifyWBody
  split
  · exact endsAs_error (by decide)
  · refine endsAs_ite (fun _ => endsAs_error (by decide)) fun _ =>
      endsAs_ite (fun _ => endsAs_error (by decide)) fun _ => ?_
    split <;> exact endsAs_ok (keeps_statusFields ..)

/-- A body that fills BUF and LEN. -/
theorem keeps_writeBuf_len (hi : mayWrite i .len = true) {off : Nat} (len : BitVec 7) (hlen : off + bs.length ≤ 64) :
    s.Keeps i { s.writeBuf off bs with len := len } :=
  (keeps_writeBuf hi hlen).trans (keeps_operands (.inr hi) (.inl rfl) (.inl rfl) (.inl ⟨rfl, rfl⟩))

theorem gensubBody_endsAs (c : Cipher) (s : State) : EndsAs .gensub s (gensubBody c s) := by
  have hblock : ∀ x, (blockBytes x).length = 16 := fun _ => beBytes_length 16 _
  unfold gensubBody
  split
  · exact endsAs_error (by decide)
  · exact endsAs_ok ((keeps_writeBuf rfl (by rw [hblock]; decide)).trans
      (keeps_writeBuf_len rfl 32 (by rw [hblock]; decide)))

theorem wrapBody_endsAs (c : Cipher) (s : State) : EndsAs .wrap s (wrapBody c s) := by
  unfold wrapBody
  split
  · exact endsAs_error (by decide)
  · exact endsAs_ite (fun _ => endsAs_error (by decide)) fun _ =>
      endsAs_ok (keeps_writeBuf_len rfl _ (by rw [keyWrap_length, State.message_length]; omega))

theorem unwrapBody_endsAs (c : Cipher) (s : State) : EndsAs .unwrap s (unwrapBody c s) := by
  unfold unwrapBody
  split
  · exact endsAs_error (by decide)
  · refine endsAs_ite (fun _ => endsAs_error (by decide)) fun hlen =>
      endsAs_ite (fun _ => endsAs_ok (keeps_writeBuf_len rfl _ ?_)) fun _ => endsAs_error (by decide)
    have hmsg := s.message_length
    rw [keyUnwrap_length _ _ (by omega) (by omega)]
    omega

theorem unwraprBody_endsAs (c : Cipher) (s : State) : EndsAs .unwrapr s (unwraprBody c s) := by
  have hreasm : s.reasmBytes.length = 32 := Memory.readBytes_length _ _ _
  unfold unwraprBody
  split
  · exact endsAs_error (by decide)
  · refine endsAs_ite (fun _ => endsAs_error (by decide)) fun _ =>
      endsAs_ite (fun _ => endsAs_ok (keeps_writeBuf_len rfl _ ?_)) fun _ => endsAs_error (by decide)
    rw [keyUnwrap_length _ _ (by omega) (by omega)]
    omega

/-- An emitted frame, in a command that may write FRAME_* (R170). -/
theorem keeps_emitFrame (hi : mayWrite i .frameId = true) (id : CanId) (hlen : bs.length ≤ 8) :
    s.Keeps i (s.emitFrame id bs) :=
  (keeps_writeFrame hi (bs := bs ++ zeros (8 - bs.length)) (by simp; omega)).trans
    (keeps_operands (.inl rfl) (.inl rfl) (.inl rfl) (.inr hi))

/-- An encoder to one node (R170). -/
theorem encodeTo_endsAs (hi : mayWrite i .frameId = true) (herr : .range ∈ possibleErrors i) (hlen : bs.length ≤ 8) :
    EndsAs i s (encodeTo s bs) :=
  endsAs_ite (fun _ => endsAs_ok (keeps_emitFrame hi _ hlen)) fun _ => endsAs_error herr

/-- An encoder that forwards a NodeId (R170). -/
theorem encodeForwarding_endsAs (hi : mayWrite i .frameId = true) (herr : .range ∈ possibleErrors i)
    (hlen : bs.length ≤ 8) : EndsAs i s (encodeForwarding s bs) :=
  endsAs_ite (fun _ => endsAs_ok (keeps_emitFrame hi _ hlen)) fun _ => endsAs_error herr

theorem encfragBody_endsAs (s : State) : EndsAs .encfrag s (encfragBody s) := by
  have hlen : (s.fragmentFrame s.fragSeq).length ≤ 8 := by
    have := fragLen_le s.fragSeq
    simp only [State.fragmentFrame, List.length_cons, Memory.readBytes_length]
    omega
  exact endsAs_ite (fun _ => endsAs_error (by decide)) fun _ =>
    endsAs_ite
      (fun _ => endsAs_ite (fun _ => endsAs_error (by decide)) fun _ => endsAs_ok (keeps_emitFrame rfl _ hlen))
      fun _ => endsAs_error (by decide)

/-- A plaintext in BUF, in a command that may write BUF, LEN and TPOS (R240). -/
theorem keeps_setPlaintext (hlen : mayWrite i .len = true) (htpos : mayWrite i .tpos = true) (h : bs.length ≤ 64) :
    s.Keeps i (s.setPlaintext bs) :=
  (keeps_writeBuf hlen (off := 0) (bs := bs) (by omega)).trans
    (keeps_operands (.inr hlen) (.inr htpos) (.inl rfl) (.inl ⟨rfl, rfl⟩))

/-- A builder of a plaintext between two nodes (R240). -/
theorem buildBetween_endsAs (hlen : mayWrite i .len = true) (htpos : mayWrite i .tpos = true)
    (herr : .range ∈ possibleErrors i) (h : bs.length ≤ 64) : EndsAs i s (buildBetween s bs) :=
  endsAs_ite (fun _ => endsAs_ok (keeps_setPlaintext hlen htpos h)) fun _ => endsAs_error herr

theorem ptskeyBody_endsAs (s : State) : EndsAs .ptskey s (ptskeyBody s) :=
  endsAs_ite (fun _ => endsAs_ok (keeps_writeBuf_len rfl 24 (by simp [State.nonce])))
    fun _ => endsAs_error (by decide)

/-- A decoder that may write the registers of every format it recognises. -/
theorem decodeAs_endsAs {o : Option Kind} (herr : .malformed ∈ possibleErrors i)
    (hk : ∀ k ∈ o, ∀ r ∈ formatRegs k, mayWrite i r = true) : EndsAs i s (decodeAs s o) := by
  cases o with
  | none => exact endsAs_error herr
  | some k => exact endsAs_ok ((keeps_writeFields (hk k rfl)).trans (keeps_statusFields ..))

/-- The formats DECCRYPT recognises: a type-2 frame is a fragment from the Key Server, else an ACK (R205). -/
def cryptKinds (k : Bool) : List Kind :=
  [.reqchal, .chal, .chalNonce, if k then .frag else .ack, .sig16, .areq, .areqMac]

/-- Each branch of DECCRYPT that names a format names one of them; the two of type 2 stand under the flag. -/
theorem cryptKind_mem {k : Bool} {f : Kind} (h : f ∈ s.cryptKind k) : f ∈ cryptKinds k := by
  simp only [State.cryptKind] at h
  split_ifs at h <;> cases h <;> simp [cryptKinds, *]

theorem deccryptBody_endsAs (s : State) : EndsAs .deccrypt s (deccryptBody s) :=
  decodeAs_endsAs (by decide) fun k hk => by
    have hmay : ∀ f ∈ cryptKinds false, ∀ r ∈ formatRegs f, mayWrite .deccrypt r = true := by decide
    exact hmay k (cryptKind_mem hk)

theorem deccryptKBody_endsAs (s : State) : EndsAs .deccryptK s (deccryptKBody s) :=
  decodeAs_endsAs (by decide) fun k hk => by
    have hmay : ∀ f ∈ cryptKinds true, ∀ r ∈ formatRegs f, mayWrite .deccryptK r = true := by decide
    exact hmay k (cryptKind_mem hk)

theorem decsig32Body_endsAs (s : State) : EndsAs .decsig32 s (decsig32Body s) :=
  decodeAs_endsAs (by decide) fun k hk => by
    split at hk <;> cases hk
    decide

theorem decplainBody_endsAs (s : State) : EndsAs .decplain s (decplainBody s) :=
  decodeAs_endsAs (by decide) fun k hk => by
    split at hk <;> cases hk
    decide

theorem dectimeBody_endsAs (s : State) : EndsAs .dectime s (dectimeBody s) :=
  decodeAs_endsAs (by decide) fun k hk => by
    split_ifs at hk <;> cases hk <;> decide

/-- An accepted fragment is stored inside REASM: FragCheck bounds its place and its length (R203, R209). -/
theorem keeps_storeFragment (hi : mayWrite i (.reasm 0) = true) (hfit : s.fragCheck = true) :
    s.Keeps i s.storeFragment := by
  have hlen : (s.fbBytes 2 s.frameFlen).length = s.frameFlen := Memory.readBytes_length _ _ _
  obtain ⟨-, -, hform⟩ := s.fragCheck_iff.1 hfit
  exact (keeps_writeReasm hi (by omega)).trans (keeps_statusFields ..)

theorem fragstBody_endsAs (s : State) : EndsAs .fragst s (fragstBody s) := by
  refine endsAs_ite (fun hacc => endsAs_ok ?_) fun _ => endsAs_error (by decide)
  simp only [State.fragAccepted, Bool.and_eq_true] at hacc
  obtain ⟨-, hfit⟩ := hacc
  have hfields : s.Keeps .fragst (s.writeFields .frag) := keeps_writeFields (by decide)
  have hstore : (s.writeFields .frag).Keeps .fragst (s.writeFields .frag).storeFragment :=
    keeps_storeFragment rfl (by rw [writeFields_fragCheck, hfit])
  exact (hfields.trans hstore).trans (keeps_statusFields ..)

theorem rclrBody_endsAs (s : State) : EndsAs .rclr s (rclrBody s) :=
  endsAs_ok ((keeps_writeReasm rfl (by simp)).trans (keeps_statusFields ..))

end

/-! ## How each command ends -/

/-- What is left of a command that fails, but for the lifecycle fields: a VERIFY clears MATCH and MOFS, a decoder KIND
(R114). -/
def State.failed (s : State) (i : Instr) : State :=
  { s with matched := if isVerify i then false else s.matched
           mofs := if isVerify i then 0 else s.mofs
           kind := if isDecoder i then 0 else s.kind }

/-- Every command is the completion of a body that ends as the tables say, and clears on an error what R114 names: the
one case split over the commands. -/
theorem exec_eq_complete (i : Instr) (s : State) :
    ∃ body, exec i s = complete s (fun s => s.failed i) body ∧ EndsAs i s body := by
  cases i with
  | nop => exact ⟨_, rfl, endsAs_ok (.refl s _)⟩
  | cmac => exact ⟨_, rfl, cmacBody_endsAs _ s⟩
  | sign => exact ⟨_, rfl, signBody_endsAs _ s⟩
  | verify => exact ⟨_, rfl, verifyBody_endsAs _ s⟩
  | verifyW => exact ⟨_, rfl, verifyWBody_endsAs _ s⟩
  | gensub => exact ⟨_, rfl, gensubBody_endsAs _ s⟩
  | wrap => exact ⟨_, rfl, wrapBody_endsAs _ s⟩
  | unwrap => exact ⟨_, rfl, unwrapBody_endsAs _ s⟩
  | unwrapr => exact ⟨_, rfl, unwraprBody_endsAs _ s⟩
  | encrq => exact ⟨_, rfl, encodeForwarding_endsAs rfl (by decide) (by simp)⟩
  | encch => exact ⟨_, rfl, encodeForwarding_endsAs rfl (by decide) (by simp)⟩
  | encchN => exact ⟨_, rfl, encodeForwarding_endsAs rfl (by decide) (by simp [State.nonce])⟩
  | encfrag => exact ⟨_, rfl, encfragBody_endsAs s⟩
  | encack => exact ⟨_, rfl, encodeTo_endsAs rfl (by decide) (by simp [State.tagBytes])⟩
  | encsig16 => exact ⟨_, rfl, encodeTo_endsAs rfl (by decide) (by simp [State.tagBytes])⟩
  | encareq => exact ⟨_, rfl, encodeTo_endsAs rfl (by decide) (by simp)⟩
  | encareqM => exact ⟨_, rfl, encodeTo_endsAs rfl (by decide) (by simp [State.tagBytes])⟩
  | encsig32 => exact ⟨_, rfl, endsAs_ok (keeps_emitFrame rfl _ (by simp [State.tagBytes]))⟩
  | encplain => exact ⟨_, rfl, endsAs_ok (keeps_emitFrame rfl _ (by simp))⟩
  | enctime => exact ⟨_, rfl, endsAs_ok (keeps_emitFrame rfl _ (by simp))⟩
  | enctimeM => exact ⟨_, rfl, endsAs_ok (keeps_emitFrame rfl _ (by simp [State.tagBytes]))⟩
  | deccrypt => exact ⟨_, rfl, deccryptBody_endsAs s⟩
  | deccryptK => exact ⟨_, rfl, deccryptKBody_endsAs s⟩
  | decsig32 => exact ⟨_, rfl, decsig32Body_endsAs s⟩
  | decplain => exact ⟨_, rfl, decplainBody_endsAs s⟩
  | dectime => exact ⟨_, rfl, dectimeBody_endsAs s⟩
  | fragst => exact ⟨_, rfl, fragstBody_endsAs s⟩
  | rclr => exact ⟨_, rfl, rclrBody_endsAs s⟩
  | ptsig16 => exact ⟨_, rfl, buildBetween_endsAs rfl rfl (by decide) (by simp [State.boundHeader])⟩
  | ptsig32 => exact ⟨_, rfl, endsAs_ok (keeps_setPlaintext rfl rfl (by simp [State.canIdBytes]))⟩
  | ptack => exact ⟨_, rfl, buildBetween_endsAs rfl rfl (by decide) (by simp [State.boundHeader])⟩
  | ptareq => exact ⟨_, rfl, buildBetween_endsAs rfl rfl (by decide) (by simp [State.boundHeader])⟩
  | pttime => exact ⟨_, rfl, endsAs_ok (keeps_setPlaintext rfl rfl (by simp [State.nonce, State.canIdBytes]))⟩
  | ptskey => exact ⟨_, rfl, ptskeyBody_endsAs s⟩

/-- All a command can do: commit a state that keeps what the command may not write, or raise a listed code (R112 to
R114). -/
theorem exec_cases {i : Instr} {s t : State} (h : exec i s = .next t) :
    (∃ u, s.Keeps i u ∧ t = u.retire .ok) ∨ ∃ c ∈ possibleErrors i, t = (s.failed i).retire c := by
  obtain ⟨body, hexec, hends⟩ := exec_eq_complete i s
  rcases complete_cases (hexec.symm.trans h) with ⟨u, rfl, ht⟩ | ⟨c, rfl, ht⟩
  · exact .inl ⟨u, hends, ht⟩
  · exact .inr ⟨c, hends, ht⟩

/-- A command keeps what it may not write, whether it succeeds or fails. -/
theorem exec_keeps {i : Instr} {s t : State} (h : exec i s = .next t) : s.Keeps i t := by
  rcases exec_cases h with ⟨u, hu, rfl⟩ | ⟨c, -, rfl⟩
  · exact hu.trans (keeps_statusFields ..)
  · exact keeps_statusFields ..

/-- Settles O24: only a failure leaves a code that is not 0. -/
theorem errorsCommitNothing : Obligations.ErrorsCommitNothing := by
  intro i s t h herr
  rcases exec_cases h with ⟨u, -, rfl⟩ | ⟨c, -, rfl⟩
  · exact absurd rfl herr
  · rfl

/-- Settles O25: a success leaves the code 0, a failure a listed one. -/
theorem everyCommandEndsInAListedCode : Obligations.EveryCommandEndsInAListedCode := by
  intro i s
  obtain ⟨t, h⟩ := exists_exec_eq_next i s
  rcases exec_cases h with ⟨u, -, rfl⟩ | ⟨c, hc, rfl⟩
  · exact ⟨_, .ok, h, .inl rfl, rfl, errorCodeBits_le _, rfl, rfl⟩
  · exact ⟨_, c, h, .inr hc, rfl, errorCodeBits_le _, rfl, rfl⟩

/-- Settles O26: the registers that read, the key array, and what only the host writes. -/
theorem unlistedRegistersAreKept : Obligations.UnlistedRegistersAreKept := by
  intro i s t h
  obtain ⟨hreads, hkey, hhost⟩ := exec_keeps h
  simp only [State.hostFields, Prod.mk.injEq] at hhost
  exact ⟨hreads, hkey, hhost⟩

end Sys2Proof.Machine
end

section
/-! The algorithms of 41_crypto.md in the words of the rules: the doubling as arithmetic on byte strings (R131), CMAC as
its loop over the blocks of the message (R133), and the passes of key wrap as loops over indexed registers (R139,
R140). -/

namespace Sys2Proof.Machine

/-! ## Doubling -/

/-- A 16-byte string and its block are the same integer (R4). -/
theorem blockOf_toNat {bs : List Byte} (h : bs.length = 16) : (blockOf bs).toNat = fromBE bs := by
  have hlt := fromBE_lt bs
  rw [h] at hlt
  exact Nat.mod_eq_of_lt hlt

/-- The top bit of a block says whether its integer is at least 2^127. -/
theorem topBit_iff (x : Block) : x.getLsbD 127 = true ↔ 2 ^ 127 ≤ x.toNat := by
  have hlt := x.isLt
  rw [BitVec.getLsbD, Nat.testBit_eq_decide_div_mod_eq, decide_eq_true_eq]
  omega

/-- Doubling a block with the top bit set: the bit is dropped, and 0x87 XORed in (R131). -/
theorem dbl_toNat_of_high {x : Block} (h : 2 ^ 127 ≤ x.toNat) :
    (dbl x).toNat = (2 * x.toNat) % 2 ^ 128 ^^^ 0x87 := by
  rw [dbl, if_pos ((topBit_iff x).2 h), BitVec.toNat_xor, BitVec.toNat_shiftLeft, Nat.shiftLeft_eq, Nat.mul_comm]
  rfl

/-- Doubling a block with the top bit clear (R131). -/
theorem dbl_toNat_of_low {x : Block} (h : x.toNat < 2 ^ 127) : (dbl x).toNat = 2 * x.toNat := by
  rw [dbl, if_neg (by rw [topBit_iff]; omega), BitVec.toNat_shiftLeft, Nat.shiftLeft_eq]
  omega

/-- Settles O33: the block of the string is its integer, and `dbl` is arithmetic on it. -/
theorem doublingShiftsAndXors : Obligations.DoublingShiftsAndXors := by
  intro x hlen
  rw [← blockOf_toNat hlen]
  exact ⟨fun h => congrArg (beBytes 16) (dbl_toNat_of_high h), fun h => congrArg (beBytes 16) (dbl_toNat_of_low h)⟩

/-! ## CMAC -/

/-- The chaining value after `k` blocks is the loop over the first `k` indices (R133). -/
theorem cbcChain_eq_foldl (enc : Block → Block) (m : List Byte) (k : Nat) :
    cbcChain enc m k =
      (List.range k).foldl (fun x i => enc (x ^^^ blockOf (slice m (16 * i) (16 * i + 16)))) 0 := by
  induction k with
  | zero => rfl
  | succ k ih => rw [List.range_succ, List.foldl_append, ← ih, cbcChain, List.foldl_cons, List.foldl_nil]

/-- The number of blocks is `ceil(len / 16)`, and 1 where that is 0 (R133). -/
theorem blockCount_eq (len : Nat) : blockCount len = if (len + 15) / 16 = 0 then 1 else (len + 15) / 16 := by
  rw [blockCount]
  exact if_congr (by omega) rfl rfl

/-- `Mlast` of a positive whole number of blocks: the last one XORed with K1 (R133). -/
theorem lastBlock_of_complete (enc : Block → Block) {m : List Byte} (h : m.length ≠ 0 ∧ m.length % 16 = 0) :
    lastBlock enc m = blockOf (slice m (16 * (blockCount m.length - 1)) m.length) ^^^ dbl (enc 0) :=
  if_pos h

/-- `Mlast` of any other message: what is left of it, padded and XORed with K2 (R133). -/
theorem lastBlock_of_partial (enc : Block → Block) {m : List Byte} (h : ¬ (m.length ≠ 0 ∧ m.length % 16 = 0)) :
    lastBlock enc m =
      blockOf (slice m (16 * (blockCount m.length - 1)) m.length ++ [0x80] ++
        zeros (15 - (slice m (16 * (blockCount m.length - 1)) m.length).length)) ^^^ dbl (dbl (enc 0)) := by
  rw [List.append_assoc]
  exact if_neg h

/-- Settles O34: the chain is the loop, and the last block is the rule's in each of its two cases. -/
theorem cmacFollowsTheRfcSteps : Obligations.CmacFollowsTheRfcSteps := by
  intro enc m
  simp only [← blockCount_eq, ← cbcChain_eq_foldl]
  refine ⟨fun h => ?_, fun h => ?_, cmacBytes_length enc m⟩
  · rw [cmacBytes, cmacBlock, lastBlock_of_complete enc h]
  · rw [cmacBytes, cmacBlock, lastBlock_of_partial enc h]

/-! ## Key wrap: strings as registers -/

/-- The registers `R[1..n]` of a string are its 8-byte pieces (R139, R140). -/
theorem piecesFrom_eq_semisOf (bs : List Byte) (a n : Nat) : piecesFrom bs a n = semisOf (bs.drop a) n := by
  induction n generalizing a with
  | zero => rfl
  | succ n ih =>
    have hhead : slice bs a (a + 8) = (bs.drop a).take 8 := by
      rw [slice, List.drop_take, Nat.add_sub_cancel_left]
    have htail : piecesFrom bs (a + 8) n =
        (List.range n).map fun i => semiOf (slice bs (a + 8 * (i + 1)) (a + 8 * (i + 1) + 8)) :=
      List.map_congr_left fun i _ => by rw [show a + 8 + 8 * i = a + 8 * (i + 1) by omega]
    rw [semisOf, List.drop_drop, ← ih, htail, ← hhead, piecesFrom, List.range_succ_eq_map, List.map_cons, List.map_map]
    rfl

/-- The registers as one string (R139, R140). -/
theorem semisBytes_eq_flatten (rs : List Semiblock) : semisBytes rs = (rs.map semiBytes).flatten := by
  induction rs with
  | nil => rfl
  | cons r rs ih => rw [semisBytes, ih, List.map_cons, List.flatten_cons]

/-! ## Key wrap: passes as loops -/

/-- Step `c` of `wrapLoop` over `n` registers (R139). -/
def wrapStep (enc : Block → Block) (n : Nat) (st : Semiblock × List Semiblock) (c : Nat) :
    Semiblock × List Semiblock :=
  let b := enc (st.1 ++ st.2.getD (c % n) 0)
  (blockHigh b ^^^ BitVec.ofNat 64 (c + 1), st.2.set (c % n) (blockLow b))

/-- Step `c` of `unwrapLoop` over `n` registers (R140). -/
def unwrapStep (dec : Block → Block) (n c : Nat) (st : Semiblock × List Semiblock) : Semiblock × List Semiblock :=
  let b := dec ((st.1 ^^^ BitVec.ofNat 64 (c + 1)) ++ st.2.getD (c % n) 0)
  (blockHigh b, st.2.set (c % n) (blockLow b))

theorem wrapLoop_eq_foldl (enc : Block → Block) (n : Nat) (st : Semiblock × List Semiblock) :
    wrapLoop enc n st = (List.range (6 * n)).foldl (wrapStep enc n) st := rfl

/-- The loop of R140 counts down, so its last step is the one at 0. -/
theorem unwrapLoop_eq_foldr (dec : Block → Block) (n : Nat) (st : Semiblock × List Semiblock) :
    unwrapLoop dec n st = (List.range (6 * n)).foldr (unwrapStep dec n) st :=
  List.foldl_reverse

/-- The steps of pass `k` come after those of the passes before it. -/
theorem range_mul_succ (n k : Nat) : List.range (n * (k + 1)) = List.range (n * k) ++ List.range' (n * k) n := by
  rw [Nat.mul_succ, List.range_eq_range', List.range_eq_range', ← List.range'_append_1, Nat.zero_add]

section
variable {n : Nat} {pre rs : List Semiblock} {r : Semiblock}

/-- A step at the register after `pre` works on that register alone (R139). -/
theorem wrapStep_append (enc : Block → Block) (k : Nat) (a : Semiblock) (hn : n = pre.length + (r :: rs).length) :
    wrapStep enc n (a, pre ++ r :: rs) (n * k + pre.length) =
      (blockHigh (enc (a ++ r)) ^^^ BitVec.ofNat 64 (n * k + pre.length + 1),
        (pre ++ [blockLow (enc (a ++ r))]) ++ rs) := by
  have hidx : (n * k + pre.length) % n = pre.length := by
    rw [Nat.mul_add_mod, Nat.mod_eq_of_lt (by rw [hn, List.length_cons]; omega)]
  simp [wrapStep, hidx]

/-- The same of a step downward (R140). -/
theorem unwrapStep_append (dec : Block → Block) (k : Nat) (a : Semiblock) (hn : n = pre.length + (r :: rs).length) :
    unwrapStep dec n (n * k + pre.length) (a, pre ++ r :: rs) =
      (blockHigh (dec ((a ^^^ BitVec.ofNat 64 (n * k + pre.length + 1)) ++ r)),
        pre ++ blockLow (dec ((a ^^^ BitVec.ofNat 64 (n * k + pre.length + 1)) ++ r)) :: rs) := by
  have hidx : (n * k + pre.length) % n = pre.length := by
    rw [Nat.mul_add_mod, Nat.mod_eq_of_lt (by rw [hn, List.length_cons]; omega)]
  simp [unwrapStep, hidx]

/-- What is left of pass `k` after the registers `pre`, upward: the steps from `n·k + |pre|` on (R139). -/
theorem foldl_wrapStep_pass (enc : Block → Block) (k : Nat) (a : Semiblock) (hn : n = pre.length + rs.length) :
    (List.range' (n * k + pre.length) rs.length).foldl (wrapStep enc n) (a, pre ++ rs) =
      ((wrapPass enc (n * k + pre.length + 1) a rs).1, pre ++ (wrapPass enc (n * k + pre.length + 1) a rs).2) := by
  induction rs generalizing pre a with
  | nil => rfl
  | cons r rs ih =>
    have hrest := ih (pre := pre ++ [blockLow (enc (a ++ r))])
      (blockHigh (enc (a ++ r)) ^^^ BitVec.ofNat 64 (n * k + pre.length + 1)) (by simp [hn]; omega)
    rw [List.length_append, List.length_singleton, ← Nat.add_assoc] at hrest
    rw [List.length_cons, List.range'_succ, List.foldl_cons, wrapStep_append enc k a hn, hrest, wrapPass,
      List.append_assoc, List.singleton_append]

/-- The same downward: the steps from the last register to the one after `pre` (R140). -/
theorem foldr_unwrapStep_pass (dec : Block → Block) (k : Nat) (a : Semiblock) (hn : n = pre.length + rs.length) :
    (List.range' (n * k + pre.length) rs.length).foldr (unwrapStep dec n) (a, pre ++ rs) =
      ((unwrapPass dec (n * k + pre.length + 1) a rs).1, pre ++ (unwrapPass dec (n * k + pre.length + 1) a rs).2) := by
  induction rs generalizing pre with
  | nil => rfl
  | cons r rs ih =>
    have hrest := ih (pre := pre ++ [r]) (by simp [hn]; omega)
    rw [List.length_append, List.length_singleton, ← Nat.add_assoc, List.append_assoc, List.append_assoc,
      List.singleton_append, List.singleton_append] at hrest
    rw [List.length_cons, List.range'_succ, List.foldr_cons, hrest, unwrapStep_append dec k _ (by simp [hn]),
      unwrapPass]

/-- The first `k` passes are the first `n·k` steps of the loop (R139). -/
theorem foldl_wrapStep (enc : Block → Block) (a : Semiblock) (hn : n = rs.length) (k : Nat) :
    (List.range (n * k)).foldl (wrapStep enc n) (a, rs) = wrapPasses enc a rs k := by
  induction k with
  | zero => rfl
  | succ k ih =>
    have hlen := (wrapPasses_length enc a rs k).trans hn.symm
    have hpass := foldl_wrapStep_pass (pre := []) (rs := (wrapPasses enc a rs k).2) enc k (wrapPasses enc a rs k).1
      (by simpa using hlen.symm)
    simp only [hlen, List.length_nil, Nat.add_zero, List.nil_append] at hpass
    rw [range_mul_succ, List.foldl_append, ih, wrapPasses, ← hn, hpass]

/-- The passes `k-1` to 0 are the steps below `n·k`, downward (R140). -/
theorem foldr_unwrapStep (dec : Block → Block) (a : Semiblock) (hn : n = rs.length) (k : Nat) :
    (List.range (n * k)).foldr (unwrapStep dec n) (a, rs) = unwrapPasses dec a rs k := by
  induction k generalizing a rs with
  | zero => rfl
  | succ k ih =>
    have hpass := foldr_unwrapStep_pass (pre := []) dec k a (by simpa using hn)
    simp only [← hn, List.length_nil, Nat.add_zero, List.nil_append] at hpass
    rw [range_mul_succ, List.foldr_append, hpass, unwrapPasses, ← hn, ← ih _ (by simpa using hn)]

end

/-- Settles O35: the registers are the pieces of the string, the passes the steps of the loops, and the output string
the registers in order. -/
theorem keyWrapFollowsTheIndexedLoops : Obligations.KeyWrapFollowsTheIndexedLoops := by
  intro enc dec n p c _ hp hc
  have hwrap : wrapLoop enc n (0xA6A6A6A6A6A6A6A6, piecesFrom p 0 n) = wrapPasses enc wrapConstant (semisOf p n) 6 := by
    rw [wrapLoop_eq_foldl, piecesFrom_eq_semisOf, List.drop_zero, Nat.mul_comm]
    exact foldl_wrapStep enc _ (by simp) 6
  have hunwrap : unwrapLoop dec n (semiOf (slice c 0 8), piecesFrom c 8 n) =
      unwrapPasses dec (semiOf (c.take 8)) (semisOf (c.drop 8) n) 6 := by
    rw [unwrapLoop_eq_foldr, piecesFrom_eq_semisOf, Nat.mul_comm]
    exact foldr_unwrapStep dec _ (by simp) 6
  have hpn : p.length / 8 = n := by omega
  have hcn : c.length / 8 - 1 = n := by omega
  simp only [hwrap, hunwrap, ← semisBytes_eq_flatten]
  refine ⟨by rw [keyWrap, hpn], by rw [keyWrap_length]; omega, by rw [keyUnwrap, hcn]; rfl, ?_⟩
  rw [keyUnwrap_length dec c (by omega) (by omega)]
  omega

end Sys2Proof.Machine
end

section
/-! The MAC commands (R134 to R138): the bodies of CMAC, SIGN, VERIFY, VERIFY.W and GENSUB in each of their cases, and
what a completion leaves in MAC, in TAG and in BUF. -/

namespace Sys2Proof.Machine

/-- The completion step of a body that fails (R112, R114). -/
theorem complete_error {s : State} {onError : State → State} {body : Except ErrorCode State} {e : ErrorCode}
    (h : body = .error e) : complete s onError body = .next ((onError s).retire e) := by
  rw [h]
  rfl

/-- A byte string written changes no byte outside its range. -/
theorem Memory.sameOutside_writeBytes (m : Memory) (a : Nat) {bs : List Byte} {n : Nat} (h : bs.length = n) :
    m.sameOutside (m.writeBytes a bs) a n := fun b hb => by
  rw [Memory.read_writeBytes, if_neg (h ▸ hb)]

/-! ## The key and the message -/

/-- KLEN = 0 passes the key check of CMAC (R130). -/
theorem State.cmacKey_of_klen_zero {s : State} (h : s.klen = 0) : s.cmacKey = some s.key128 := if_pos h

/-- Any other KLEN fails it (R130). -/
theorem State.cmacKey_of_klen_ne {s : State} (h : s.klen ≠ 0) : s.cmacKey = none := if_neg h

/-- A MAC is written above KEY. -/
theorem State.writeMac_keyArr (s : State) (mac : List Byte) {n : Nat} (hn : n ≤ 24) :
    (s.writeMac mac).keyArr n = s.keyArr n :=
  Memory.readBytes_writeBytes_out _ _ _ _ _ (.inl (by unfold keyBase macBase; omega))

/-- A MAC is written below BUF. -/
theorem State.writeMac_bufBytes (s : State) {mac : List Byte} (hmac : mac.length = 16) (n : Nat) :
    (s.writeMac mac).bufBytes n = s.bufBytes n :=
  Memory.readBytes_writeBytes_out _ _ _ _ _ (.inr (by unfold macBase bufBase; omega))

/-! ## CMAC and SIGN -/

/-- The MAC just written reads back (R34). -/
theorem State.writeMac_macArr (s : State) {mac : List Byte} (hmac : mac.length = 16) :
    (s.writeMac mac).macArr = mac := by
  have hread := Memory.readBytes_writeBytes_same s.mem macBase mac
  rwa [hmac] at hread

/-- MACi is bytes `4i` to `4i+3` of the MAC array, little-endian (R5, R34). -/
theorem State.readReg_mac (s : State) (i : Fin 4) :
    s.readReg (.mac i) = BitVec.ofNat 32 (fromLE (slice s.macArr (4 * i.val) (4 * i.val + 4))) := by
  rw [State.macArr, slice_readBytes s.mem macBase 16 (4 * i.val) 4 (by omega)]
  rfl

/-- MACARR takes a MAC, and TAG its first 4 bytes: what a successful SIGN writes (R135). -/
def State.storeSignature (s : State) (mac : List Byte) : State :=
  { s with mem := s.mem.writeBytes macBase mac, tag := BitVec.ofNat 32 (fromLE (mac.take 4)) }

/-- TAG then holds those bytes (R47, R135). -/
theorem State.storeSignature_tagBytes (s : State) {mac : List Byte} (hmac : mac.length = 16) :
    (s.storeSignature mac).tagBytes = mac.take 4 :=
  leBytes_ofNat_fromLE _ (by rw [List.length_take, hmac]; rfl)

/-- TAG is then MAC0 (R135). -/
theorem State.storeSignature_tag (s : State) {mac : List Byte} (hmac : mac.length = 16) :
    (s.storeSignature mac).tag = (s.storeSignature mac).readReg (.mac 0) := by
  have hread : (s.storeSignature mac).macArr = mac := s.writeMac_macArr hmac
  rw [State.readReg_mac, hread]
  rfl

/-- SIGN leaves the key of CMAC. -/
theorem State.storeSignature_cmacKey (s : State) (mac : List Byte) : (s.storeSignature mac).cmacKey = s.cmacKey := by
  have hkey : (s.storeSignature mac).keyArr 16 = s.keyArr 16 := s.writeMac_keyArr mac (by decide)
  simp only [State.cmacKey, State.key128, hkey]
  rfl

/-- SIGN leaves the message it signed. -/
theorem State.storeSignature_message (s : State) {mac : List Byte} (hmac : mac.length = 16) :
    (s.storeSignature mac).message = s.message :=
  s.writeMac_bufBytes hmac s.len.toNat

section
variable {c : Cipher} {s : State} {k : AesKey}

theorem cmacBody_of_noKey (hk : s.cmacKey = none) : cmacBody c s = .error .keylen := by
  simp only [cmacBody, hk]

theorem cmacBody_of_long (hk : s.cmacKey = some k) (hlen : 64 < s.len.toNat) : cmacBody c s = .error .badlen := by
  simp only [cmacBody, hk, if_pos hlen]

theorem cmacBody_of_legal (hk : s.cmacKey = some k) (hlen : s.len.toNat ≤ 64) :
    cmacBody c s = .ok (s.writeMac (cmacBytes (c.enc k) s.message)) := by
  simp only [cmacBody, hk, if_neg (Nat.not_lt.2 hlen)]

theorem signBody_of_noKey (hk : s.cmacKey = none) : signBody c s = .error .keylen := by
  simp only [signBody, hk]

theorem signBody_of_long (hk : s.cmacKey = some k) (hlen : 64 < s.len.toNat) : signBody c s = .error .badlen := by
  simp only [signBody, hk, if_pos hlen]

theorem signBody_of_legal (hk : s.cmacKey = some k) (hlen : s.len.toNat ≤ 64) :
    signBody c s = .ok (s.storeSignature (cmacBytes (c.enc k) s.message)) := by
  simp only [signBody, hk, if_neg (Nat.not_lt.2 hlen), State.storeSignature, State.writeMac, signature]

end

/-- Settles O36: the three cases of the body, and the MAC read back from where it was written. -/
theorem cmacWritesTheMac : Obligations.CmacWritesTheMac := by
  intro s
  refine ⟨fun h => ?_, fun h hlen => ?_, fun h hlen => ?_⟩
  · exact complete_error (cmacBody_of_noKey (State.cmacKey_of_klen_ne h))
  · exact complete_error (cmacBody_of_long (State.cmacKey_of_klen_zero h) hlen)
  · have hmac := cmacBytes_length (Config.cipher.enc s.key128) s.message
    have hread := s.writeMac_macArr hmac
    refine ⟨_, complete_ok (cmacBody_of_legal (State.cmacKey_of_klen_zero h) hlen), rfl, hread, fun i => ?_,
      s.mem.sameOutside_writeBytes macBase hmac⟩
    exact (State.readReg_mac _ i).trans (congrArg (fun bs => BitVec.ofNat 32 (fromLE (slice bs _ _))) hread)

/-- Settles O37: as for CMAC, and TAG by `storeSignature`. -/
theorem signWritesMacAndTag : Obligations.SignWritesMacAndTag := by
  intro s
  refine ⟨fun h => ?_, fun h hlen => ?_, fun h hlen => ?_⟩
  · exact complete_error (signBody_of_noKey (State.cmacKey_of_klen_ne h))
  · exact complete_error (signBody_of_long (State.cmacKey_of_klen_zero h) hlen)
  · have hmac := cmacBytes_length (Config.cipher.enc s.key128) s.message
    exact ⟨_, complete_ok (signBody_of_legal (State.cmacKey_of_klen_zero h) hlen), rfl, s.writeMac_macArr hmac,
      s.storeSignature_tagBytes hmac, s.storeSignature_tag hmac, s.mem.sameOutside_writeBytes macBase hmac⟩

/-! ## VERIFY and VERIFY.W -/

/-- The message with the time `t` at TPOS has the signature TAG (R136). -/
def State.timeMatches (s : State) (enc : Block → Block) (t : Word) : Bool :=
  s.tagMatches enc (withTime s.message s.tpos.toNat t)

/-- A signature is the first 4 bytes of the MAC, and matches when they are those of TAG (R136). -/
theorem State.tagMatches_eq (s : State) (enc : Block → Block) (m : List Byte) :
    s.tagMatches enc m = decide ((cmacBytes enc m).take 4 = leBytes 4 s.tag.toNat) :=
  beq_eq_decide _ _

/-- VERIFY.W looks for the first time of its window that matches (R136, R137). -/
theorem State.windowMatch_eq_find? (s : State) (enc : Block → Block) :
    s.windowMatch enc = (windowTimes s.time).find? fun p => s.timeMatches enc p.1 := rfl

section
variable {c : Cipher} {s : State} {k : AesKey}

theorem verifyBody_of_noKey (hk : s.cmacKey = none) : verifyBody c s = .error .keylen := by
  simp only [verifyBody, hk]

theorem verifyBody_of_long (hk : s.cmacKey = some k) (hlen : 64 < s.len.toNat) : verifyBody c s = .error .badlen := by
  simp only [verifyBody, hk, if_pos hlen]

theorem verifyBody_of_legal (hk : s.cmacKey = some k) (hlen : s.len.toNat ≤ 64) :
    verifyBody c s = .ok { s with matched := s.tagMatches (c.enc k) s.message, mofs := 0 } := by
  simp only [verifyBody, hk, if_neg (Nat.not_lt.2 hlen)]

theorem verifyWBody_of_noKey (hk : s.cmacKey = none) : verifyWBody c s = .error .keylen := by
  simp only [verifyWBody, hk]

theorem verifyWBody_of_long (hk : s.cmacKey = some k) (hlen : 64 < s.len.toNat) :
    verifyWBody c s = .error .badlen := by
  simp only [verifyWBody, hk, if_pos hlen]

/-- The time at TPOS has to lie inside the message (R136). -/
theorem verifyWBody_of_short (hk : s.cmacKey = some k) (hlen : s.len.toNat ≤ 64)
    (htpos : s.len.toNat < s.tpos.toNat + 4) : verifyWBody c s = .error .badlen := by
  simp only [verifyWBody, hk, if_neg (Nat.not_lt.2 hlen), if_pos htpos]

theorem verifyWBody_of_legal (hk : s.cmacKey = some k) (hlen : s.len.toNat ≤ 64)
    (htpos : s.tpos.toNat + 4 ≤ s.len.toNat) :
    verifyWBody c s = .ok { s with
      matched := s.timeMatches (c.enc k) (s.time - 1) || s.timeMatches (c.enc k) s.time ||
        s.timeMatches (c.enc k) (s.time + 1)
      mofs := if s.timeMatches (c.enc k) (s.time - 1) then 1 else if s.timeMatches (c.enc k) s.time then 2
        else if s.timeMatches (c.enc k) (s.time + 1) then 3 else 0 } := by
  simp only [verifyWBody, hk, if_neg (Nat.not_lt.2 hlen), if_neg (Nat.not_lt.2 htpos), State.windowMatch_eq_find?,
    windowTimes, List.find?_cons, List.find?_nil]
  cases s.timeMatches (c.enc k) (s.time - 1) with
  | true => rfl
  | false =>
    cases s.timeMatches (c.enc k) s.time with
    | true => rfl
    | false => cases s.timeMatches (c.enc k) (s.time + 1) <;> rfl

end

/-- Settles O38: the cases of the two bodies; the times of the window are TIME - 1, TIME + 0 and TIME + 1. -/
theorem verifyComparesTheTag : Obligations.VerifyComparesTheTag := by
  intro s mac m hit fails reports
  have hhit : ∀ d, s.timeMatches (Config.cipher.enc s.key128) (s.time + d) = hit d := fun d => s.tagMatches_eq _ _
  refine ⟨fun h => ?_, fun h hlen => ?_, fun h hlen => ⟨?_, fun htpos => ?_, fun htpos => ?_⟩⟩
  · have hk := State.cmacKey_of_klen_ne h
    exact ⟨complete_error (verifyBody_of_noKey hk), complete_error (verifyWBody_of_noKey hk)⟩
  · have hk := State.cmacKey_of_klen_zero h
    exact ⟨complete_error (verifyBody_of_long hk hlen), complete_error (verifyWBody_of_long hk hlen)⟩
  · have hbody := verifyBody_of_legal (c := Config.cipher) (State.cmacKey_of_klen_zero h) hlen
    rw [State.tagMatches_eq] at hbody
    exact complete_ok hbody
  · exact complete_error (verifyWBody_of_short (State.cmacKey_of_klen_zero h) hlen htpos)
  · have hbody := verifyWBody_of_legal (c := Config.cipher) (State.cmacKey_of_klen_zero h) hlen htpos
    have h0 : s.timeMatches (Config.cipher.enc s.key128) s.time = hit 0 :=
      (congrArg _ (BitVec.add_zero s.time)).symm.trans (hhit 0)
    rw [BitVec.sub_eq_add_neg, hhit (-1), h0, hhit 1] at hbody
    exact complete_ok hbody

/-- The MAC that SIGN wrote matches its TAG (R135, R136). -/
theorem State.storeSignature_tagMatches (s : State) (enc : Block → Block) :
    (s.storeSignature (cmacBytes enc s.message)).tagMatches enc s.message = true := by
  rw [State.tagMatches, s.storeSignature_tagBytes (cmacBytes_length enc s.message), signature, beq_self_eq_true]

/-- Settles O39: VERIFY computes the MAC that SIGN wrote, under a key and over a message SIGN does not touch. -/
theorem verifyAcceptsWhatSignMade : Obligations.VerifyAcceptsWhatSignMade := by
  intro s h hlen
  obtain ⟨u, hu⟩ : ∃ u, u = s.storeSignature (cmacBytes (Config.cipher.enc s.key128) s.message) := ⟨_, rfl⟩
  have hkey : u.cmacKey = some s.key128 := by
    rw [hu, State.storeSignature_cmacKey, State.cmacKey_of_klen_zero h]
  have hmsg : u.message = s.message := by rw [hu, s.storeSignature_message (cmacBytes_length _ _)]
  have hlen' : u.len.toNat ≤ 64 := by rwa [hu]
  have hmatch : u.tagMatches (Config.cipher.enc s.key128) u.message = true := by
    rw [hmsg, hu, State.storeSignature_tagMatches]
  have hsign : signBody Config.cipher s = .ok u := hu ▸ signBody_of_legal (State.cmacKey_of_klen_zero h) hlen
  have hverify : verifyBody Config.cipher (u.retire .ok) = _ := verifyBody_of_legal hkey hlen'
  exact ⟨_, _, complete_ok hsign, complete_ok hverify, hmatch, rfl, rfl, rfl⟩

/-- The times of the replay window are those within one unit of TIME, modulo 2^32 (R137, R297). -/
theorem sub_time_mem_window_iff (t t' : Word) :
    (t' - t = 0xFFFFFFFF ∨ t' - t = 0 ∨ t' - t = 1) ↔ t' = t - 1 ∨ t' = t ∨ t' = t + 1 := by
  bv_omega

/-- Settles O40: MATCH says that one of the three times matched. -/
theorem replayWindowIsOneTimeUnit : Obligations.ReplayWindowIsOneTimeUnit := by
  intro s t h hlen htpos hexec
  have hrun : exec .verifyW s = _ := complete_ok (verifyWBody_of_legal (State.cmacKey_of_klen_zero h) hlen htpos)
  obtain rfl := Host.Outcome.next.inj (hexec.symm.trans hrun)
  have hmatch : ∀ t', s.timeMatches (Config.cipher.enc s.key128) t' = true ↔
      (cmacBytes (Config.cipher.enc s.key128) (withTime (s.bufBytes s.len.toNat) s.tpos.toNat t')).take 4 =
        leBytes 4 s.tag.toNat := fun t' => by
    rw [State.timeMatches, State.tagMatches_eq, decide_eq_true_eq]
    rfl
  simp only [sub_time_mem_window_iff, ← hmatch, State.retire_matched, Bool.or_eq_true, or_and_right, exists_or,
    exists_eq_left, or_assoc]

/-! ## GENSUB -/

/-- Two subkeys put into `BUF[0..16)` and `BUF[16..32)`, LEN 32: what a successful GENSUB writes (R138). -/
def State.storeSubkeys (s : State) (k1 k2 : List Byte) : State :=
  { s with mem := (s.mem.writeBytes bufBase k1).writeBytes (bufBase + 16) k2, len := 32 }

section
variable (s : State) {k1 k2 : List Byte}

/-- The first subkey reads back: the second is written above it. -/
theorem State.storeSubkeys_first (h1 : k1.length = 16) : (s.storeSubkeys k1 k2).bufBytes 16 = k1 :=
  (Memory.readBytes_writeBytes_out _ _ _ _ _ (.inl (by decide))).trans (s.loadBuf_bufBytes 32 h1)

/-- The second subkey reads back. -/
theorem State.storeSubkeys_second (h2 : k2.length = 16) : (s.storeSubkeys k1 k2).mem.readBytes 0x110 16 = k2 := by
  have hread := Memory.readBytes_writeBytes_same (s.mem.writeBytes bufBase k1) 0x110 k2
  rwa [h2] at hread

/-- The two subkeys change no byte but their 32. -/
theorem State.storeSubkeys_sameOutside (h1 : k1.length = 16) (h2 : k2.length = 16) :
    s.mem.sameOutside (s.storeSubkeys k1 k2).mem 0x100 32 := fun b hb => by
  have hfirst := s.mem.sameOutside_writeBytes 0x100 h1 b (by omega)
  have hsecond := (s.mem.writeBytes bufBase k1).sameOutside_writeBytes 0x110 h2 b (by omega)
  exact hsecond.trans hfirst

end

theorem gensubBody_of_noKey {c : Cipher} {s : State} (hk : s.cmacKey = none) : gensubBody c s = .error .keylen := by
  simp only [gensubBody, hk]

theorem gensubBody_of_key {c : Cipher} {s : State} {k : AesKey} (hk : s.cmacKey = some k) :
    gensubBody c s = .ok (s.storeSubkeys (blockBytes (dbl (c.enc k 0))) (blockBytes (dbl (dbl (c.enc k 0))))) := by
  simp only [gensubBody, hk, State.storeSubkeys, State.writeBuf, subkeys, Nat.add_zero]

/-- Settles O41: the two cases of the body, and the subkeys read back from where they were written. -/
theorem gensubWritesTheSubkeys : Obligations.GensubWritesTheSubkeys := by
  intro s
  have hlen : ∀ x, (blockBytes x).length = 16 := fun _ => beBytes_length 16 _
  refine ⟨fun h => complete_error (gensubBody_of_noKey (State.cmacKey_of_klen_ne h)), fun h => ?_⟩
  exact ⟨_, complete_ok (gensubBody_of_key (State.cmacKey_of_klen_zero h)), rfl,
    s.storeSubkeys_first (hlen _), s.storeSubkeys_second (hlen _), s.storeSubkeys_sameOutside (hlen _) (hlen _)⟩

end Sys2Proof.Machine
end

section
/-! The key-wrap commands (R141 to R143): the bodies of WRAP, UNWRAP and UNWRAPR in each of their cases, and what a
completion leaves in BUF and LEN. -/

namespace Sys2Proof.Machine

/-! ## The key -/

/-- `KEYBYTES()` for the KLEN that passes the key check of key wrap (R33, R130). -/
def State.wrapKey (s : State) : AesKey := if s.klen = 0 then s.key128 else s.key192

theorem State.kwKey_of_klen_le {s : State} (h : s.klen.toNat ≤ 1) : s.kwKey = some s.wrapKey := by
  unfold State.kwKey State.wrapKey
  split
  · rfl
  · next h0 =>
    have h1 : s.klen = 1 := by bv_omega
    exact if_pos h1

theorem State.kwKey_of_klen_ge {s : State} (h : 2 ≤ s.klen.toNat) : s.kwKey = none := by
  have h0 : s.klen ≠ 0 := by bv_omega
  have h1 : s.klen ≠ 1 := by bv_omega
  rw [State.kwKey, if_neg h0, if_neg h1]

/-! ## The bodies -/

section
variable {c : Cipher} {s : State} {k : AesKey} {p : List Byte}

theorem wrapBody_of_noKey (hk : s.kwKey = none) : wrapBody c s = .error .keylen := by
  simp only [wrapBody, hk]

theorem wrapBody_of_badLen (hk : s.kwKey = some k)
    (hlen : ¬ (16 ≤ s.len.toNat ∧ s.len.toNat ≤ 56 ∧ s.len.toNat % 8 = 0)) : wrapBody c s = .error .badlen := by
  have hbad : s.len.toNat < 16 ∨ 56 < s.len.toNat ∨ s.len.toNat % 8 ≠ 0 := by omega
  simp only [wrapBody, hk, if_pos hbad]

theorem unwrapBody_of_noKey (hk : s.kwKey = none) : unwrapBody c s = .error .keylen := by
  simp only [unwrapBody, hk]

theorem unwrapBody_of_badLen (hk : s.kwKey = some k)
    (hlen : ¬ (24 ≤ s.len.toNat ∧ s.len.toNat ≤ 64 ∧ s.len.toNat % 8 = 0)) : unwrapBody c s = .error .badlen := by
  have hbad : s.len.toNat < 24 ∨ 64 < s.len.toNat ∨ s.len.toNat % 8 ≠ 0 := by omega
  simp only [unwrapBody, hk, if_pos hbad]

/-- UNWRAP releases nothing when the integrity value is wrong (R142). -/
theorem unwrapBody_of_badIcv (hk : s.kwKey = some k) (h24 : 24 ≤ s.len.toNat) (h64 : s.len.toNat ≤ 64)
    (h8 : s.len.toNat % 8 = 0) (hout : (keyUnwrap (c.dec k) s.message).1 = false) :
    unwrapBody c s = .error .icv := by
  have hlen : ¬ (s.len.toNat < 24 ∨ 64 < s.len.toNat ∨ s.len.toNat % 8 ≠ 0) := by omega
  simp only [unwrapBody, hk, if_neg hlen, hout, Bool.false_eq_true, if_false]

theorem unwraprBody_of_noKey (hk : s.kwKey = none) : unwraprBody c s = .error .keylen := by
  simp only [unwraprBody, hk]

/-- UNWRAPR waits for all six fragments (R143). -/
theorem unwraprBody_of_incomplete (hk : s.kwKey = some k) (hmap : s.rmap ≠ 0x3F) :
    unwraprBody c s = .error .incomplete := by
  simp only [unwraprBody, hk, if_pos hmap]

/-- UNWRAPR releases nothing when the integrity value is wrong (R143). -/
theorem unwraprBody_of_badIcv (hk : s.kwKey = some k) (hmap : s.rmap = 0x3F)
    (hout : (keyUnwrap (c.dec k) s.reasmBytes).1 = false) : unwraprBody c s = .error .icv := by
  simp only [unwraprBody, hk, if_neg (not_not.2 hmap), hout, Bool.false_eq_true, if_false]

/-- UNWRAPR on a full map, when the integrity value is the constant (R143). -/
theorem unwraprBody_of_legal (hk : s.kwKey = some k) (hmap : s.rmap = 0x3F)
    (hout : keyUnwrap (c.dec k) s.reasmBytes = (true, p)) : unwraprBody c s = .ok (s.loadBuf p 24) := by
  simp only [unwraprBody, hk, if_neg (not_not.2 hmap), hout, if_true, State.loadBuf]

end

/-! ## What the commands leave -/

/-- A command whose completion fills BUF and sets LEN has that as its effect, and nothing else but the lifecycle
fields (R141 to R143). -/
theorem loadsBuf_of_exec {i : Instr} {s : State} {bs : List Byte} {n : BitVec 7} {l : Nat} (hl : bs.length = l)
    (h : exec i s = .next ((s.loadBuf bs n).retire .ok)) :
    ∃ t, exec i s = .next t ∧ t = { s with mem := t.mem, len := n, errCode := 0, busy := false, done := true } ∧
      t.bufBytes l = bs ∧ Memory.sameOutside s.mem t.mem 0x100 l :=
  ⟨_, h, rfl, s.loadBuf_bufBytes n hl, s.mem.sameOutside_writeBytes 0x100 hl⟩

/-- Settles O42: the three cases of the body. -/
theorem wrapReplacesTheKeyData : Obligations.WrapReplacesTheKeyData := by
  intro s
  refine ⟨fun h => ?_, fun h hlen => ?_, fun h h16 h56 h8 => ?_⟩
  · exact complete_error (wrapBody_of_noKey (State.kwKey_of_klen_ge h))
  · exact complete_error (wrapBody_of_badLen (State.kwKey_of_klen_le h) hlen)
  · have hlen : (keyWrap (Config.cipher.enc s.wrapKey) s.message).length = s.len.toNat + 8 := by
      rw [keyWrap_length, State.message_length]
      omega
    exact loadsBuf_of_exec hlen (complete_ok (wrapBody_of_legal (State.kwKey_of_klen_le h) h16 h56 h8))

/-- Settles O43: the four cases of the body. -/
theorem unwrapReplacesTheCiphertext : Obligations.UnwrapReplacesTheCiphertext := by
  intro s out
  refine ⟨fun h => ?_, fun h hlen => ?_, fun h h24 h64 h8 => ⟨fun hbad => ?_, fun hgood => ?_⟩⟩
  · exact complete_error (unwrapBody_of_noKey (State.kwKey_of_klen_ge h))
  · exact complete_error (unwrapBody_of_badLen (State.kwKey_of_klen_le h) hlen)
  · exact complete_error (unwrapBody_of_badIcv (State.kwKey_of_klen_le h) h24 h64 h8 hbad)
  · have hmsg := s.message_length
    have hlen : out.2.length = s.len.toNat - 8 :=
      (keyUnwrap_length _ s.message (by omega) (by omega)).trans (by rw [hmsg])
    have hout : keyUnwrap (Config.cipher.dec s.wrapKey) s.message = (true, out.2) := Prod.ext hgood rfl
    exact loadsBuf_of_exec hlen (complete_ok (unwrapBody_of_legal (State.kwKey_of_klen_le h) h24 h64 h8 hout))

/-- Settles O44: the four cases of the body; LEN is in none of them. -/
theorem unwraprUnwrapsTheReassembledKey : Obligations.UnwraprUnwrapsTheReassembledKey := by
  intro s out
  refine ⟨fun h => ?_, fun h hmap => ?_, fun h hmap => ⟨fun hbad => ?_, fun hgood => ?_⟩⟩
  · exact complete_error (unwraprBody_of_noKey (State.kwKey_of_klen_ge h))
  · exact complete_error (unwraprBody_of_incomplete (State.kwKey_of_klen_le h) hmap)
  · exact complete_error (unwraprBody_of_badIcv (State.kwKey_of_klen_le h) hmap hbad)
  · have hreasm : s.reasmBytes.length = 32 := Memory.readBytes_length _ _ _
    have hlen : out.2.length = 24 :=
      (keyUnwrap_length _ s.reasmBytes (by omega) (by omega)).trans (by rw [hreasm])
    have hout : keyUnwrap (Config.cipher.dec s.wrapKey) s.reasmBytes = (true, out.2) := Prod.ext hgood rfl
    exact loadsBuf_of_exec hlen (complete_ok (unwraprBody_of_legal (State.kwKey_of_klen_le h) hmap hout))

end Sys2Proof.Machine
end

section
/-! The delivery of a session key (R99, R141, R143, R173, R209): the frames ENCFRAG emits are the fragments of the
wrapped key, a block collects them in any order, and unwraps them under the same key. -/

namespace Sys2Proof.Machine

/-! ## The fragments of a wrapped key -/

section
variable {w : List Byte} {dst : BitVec 6} {q : Nat}

/-- Byte `a` of a slice is byte `lo + a` of the string. -/
theorem slice_getD (bs : List Byte) {lo n a : Nat} (ha : a < n) :
    (slice bs lo (lo + n)).getD a 0 = bs.getD (lo + a) 0 := by
  simp [slice, List.getD_eq_getElem?_getD, ha]

/-- Six bytes for each of the fragments 0 to 4, two for the last: they fill 32 bytes (R91). -/
theorem fragLen_fits (hq : q ≤ 5) : 6 * q + fragLen q ≤ 32 := by
  unfold fragLen
  split <;> omega

/-- Fragment `a / 6` is the one that carries byte `a` of the wrapped key (R91). -/
theorem mem_fragment_iff {a : Nat} (ha : a < 32) (hq : q ≤ 5) : (6 * q ≤ a ∧ a < 6 * q + fragLen q) ↔ a / 6 = q := by
  unfold fragLen
  split <;> omega

theorem fragmentData_length (hw : w.length = 32) (hq : q ≤ 5) :
    (slice w (6 * q) (6 * q + fragLen q)).length = fragLen q := by
  have hfit := fragLen_fits hq
  rw [slice, List.length_drop, List.length_take, hw]
  omega

theorem fragmentOf_length (hw : w.length = 32) (hq : q ≤ 5) : (fragmentOf w dst q).length = 2 + fragLen q := by
  rw [fragmentOf, List.length_cons, List.length_cons, fragmentData_length hw hq]
  omega

/-- A NodeId of six bits, widened to F_DST, is what byte 0 carries of it, and what is read back (R88). -/
theorem extractLsb'_setWidth_dst (dst : BitVec 6) : (dst.setWidth 8).extractLsb' 0 6 = dst := by
  apply BitVec.eq_of_toNat_eq
  have := dst.isLt
  simp only [BitVec.extractLsb'_toNat, BitVec.toNat_setWidth, Nat.shiftRight_zero]
  omega

/-- ENCFRAG's frame of fragment `q` is the fragment of the first 32 bytes of BUF (R91, R173). -/
theorem fragmentFrame_eq_fragmentOf {s : State} (hdst : s.fDst = dst.setWidth 8) (hq : q ≤ 5) :
    s.fragmentFrame q = fragmentOf (s.bufBytes 32) dst q := by
  have hbyte0 : s.byte0 2 = 2#2 ++ dst := by
    rw [State.byte0, hdst, extractLsb'_setWidth_dst]
    rfl
  rw [State.fragmentFrame, fragmentOf, hbyte0, State.bufBytes, slice_readBytes _ _ _ _ _ (fragLen_fits hq)]

/-- ENCFRAG of fragment `q`, 0 to 5, of a 32-byte wrapped key, to a node in range (R173). -/
theorem encfragBody_of_legal {s : State} (hlen : s.len.toNat = 32) (hin : s.inRange s.fDst = true)
    (hseq : s.fragSeq = q) (hq : q ≤ 5) : encfragBody s = .ok (s.emitFrame s.txid (s.fragmentFrame q)) := by
  rw [encfragBody, if_neg (not_not.2 hlen), if_pos hin, hseq, if_neg (Nat.not_lt.2 hq)]

end

/-! ## A fragment received -/

/-- A received frame put into FRAME_* is the frame the block holds. -/
theorem holdsFrame_withFrame (s : State) {bs : List Byte} (hlen : bs.length ≤ 8) :
    (s.withFrame bs.length bs).HoldsFrame bs := by
  have hread := Memory.readBytes_writeBytes_same s.mem frameBase (bs ++ zeros (8 - bs.length))
  rw [List.length_append, zeros_length, Nat.add_sub_cancel' hlen] at hread
  exact ⟨rfl, hread⟩

section
variable {w : List Byte} {dst : BitVec 6} {q : Nat} {r : State} (hw : w.length = 32) (hq : q ≤ 5)
  (h : r.HoldsFrame (fragmentOf w dst q))
include hw hq h

/-- What FRAGST reads of a fragment: its length, its addressed node, its type, SEQ, FLEN and data (R88, R91, R203). -/
theorem fragmentFields :
    r.frameDlc.toNat = 2 + fragLen q ∧ r.frameDst = dst.setWidth 8 ∧ r.frameType = 2 ∧ r.frameSeq = q ∧
      r.frameFlen = fragLen q ∧ r.fbBytes 2 (fragLen q) = slice w (6 * q) (6 * q + fragLen q) := by
  have hle := fragLen_le q
  have hlen := fragmentOf_length (dst := dst) hw hq
  have h0 : r.fb 0 = 2#2 ++ dst := h.byte 0 (by decide)
  have h1 : r.fb 1 = BitVec.ofNat 8 (16 * q + fragLen q) := h.byte 1 (by decide)
  have h1n : (r.fb 1).toNat = 16 * q + fragLen q := by
    rw [h1, BitVec.toNat_ofNat]
    omega
  refine ⟨(h.dlc (by omega)).trans hlen, ?_, ?_, ?_, ?_, ?_⟩
  · have hlow : (2#2 ++ dst : Byte).extractLsb' 0 6 = (dst.setWidth 8).extractLsb' 0 6 := by
      rw [BitVec.extractLsb'_append_eq_of_add_le (by decide), BitVec.extractLsb'_eq_self, extractLsb'_setWidth_dst]
    rw [State.frameDst, h0, hlow, append_extractLsb'_of_lt]
    rw [BitVec.toNat_setWidth]
    omega
  · rw [State.frameType, h0, BitVec.extractLsb'_append_eq_of_le (by decide), BitVec.extractLsb'_eq_self]
    rfl
  · rw [State.frameSeq_eq, h1n]
    omega
  · rw [State.frameFlen_eq, h1n]
    omega
  · have hdata := fragmentData_length hw hq
    rw [h.bytes 2 (fragLen q) (by omega), slice, List.take_append_of_le_length (by omega), ← hlen, List.take_length,
      fragmentOf]
    rfl

/-- FRAGST on a fragment to a node in range stores its data and its bit of RMAP (R209). -/
theorem fragstBody_of_fragment (hdst : dst.toNat < r.nodeCnt.toNat) :
    fragstBody r = .ok { r with
      fType := 2, fDst := dst.setWidth 8, fFrag := r.fb 1, kind := 4, rmap := r.rmap ||| (1#6 <<< q),
      mem := r.mem.writeBytes (reasmBase + 6 * q) (slice w (6 * q) (6 * q + fragLen q)) } := by
  obtain ⟨hdlc, hto, hty, hseq, hflen, hdata⟩ := fragmentFields hw hq h
  have hle := fragLen_le q
  have hin : r.inRange r.frameDst = true := by
    rw [hto, State.inRange_iff, BitVec.toNat_setWidth]
    omega
  have hcheck : r.fragCheck = true := by
    simp [State.fragCheck, hdlc, hseq, hflen, hq]
  have hacc : r.fragAccepted = true := by
    simp [State.fragAccepted, hdlc, hin, hty, hcheck]
    omega
  have hstore : (r.writeFields .frag).storeFragment = { r.writeFields .frag with
      rmap := r.rmap ||| (1#6 <<< r.frameSeq)
      mem := r.mem.writeBytes (reasmBase + 6 * r.frameSeq) (r.fbBytes 2 r.frameFlen) } := rfl
  rw [fragstBody, if_pos hacc, hstore, hseq, hflen, hdata, State.setKind, State.writeFields, State.writeByte0, hto, hty]
  rfl

end

/-! ## Fragments collected -/

/-- `t` is `s` after the fragments `qs` of `w` were stored: their bits of RMAP and their bytes of REASM, and no other
byte of an array but the frame's. -/
structure State.Collected (w : List Byte) (s t : State) (qs : List Nat) : Prop where
  klen : t.klen = s.klen
  nodeCnt : t.nodeCnt = s.nodeCnt
  rmap : ∀ i, i < 6 → t.rmap.getLsbD i = (s.rmap.getLsbD i || decide (i ∈ qs))
  reasm : ∀ a, a < 32 → t.mem.read (reasmBase + a) = if a / 6 ∈ qs then w.getD a 0 else s.mem.read (reasmBase + a)
  kept : ∀ a, a < reasmBase → ¬ (frameBase ≤ a ∧ a < frameBase + 8) → t.mem.read a = s.mem.read a

section
variable {w : List Byte} {dst : BitVec 6} {s t u : State} {q : Nat} {qs : List Nat}

theorem State.Collected.refl (w : List Byte) (s : State) : s.Collected w s [] where
  klen := rfl
  nodeCnt := rfl
  rmap _ _ := by simp
  reasm _ _ := by simp
  kept _ _ _ := rfl

theorem State.Collected.cons (h : s.Collected w t [q]) (h' : t.Collected w u qs) : s.Collected w u (q :: qs) where
  klen := h'.klen.trans h.klen
  nodeCnt := h'.nodeCnt.trans h.nodeCnt
  rmap i hi := by
    rw [h'.rmap i hi, h.rmap i hi]
    simp [Bool.or_assoc]
  reasm a ha := by
    rw [h'.reasm a ha, h.reasm a ha]
    simp only [List.mem_cons, List.not_mem_nil, or_false]
    split_ifs <;> tauto
  kept a ha hframe := (h'.kept a ha hframe).trans (h.kept a ha hframe)

/-- Bit `q` of RMAP set: that bit is 1, the others are kept (R39). -/
theorem getLsbD_or_bit (m : BitVec 6) (q : Nat) {i : Nat} (hi : i < 6) :
    (m ||| 1#6 <<< q).getLsbD i = (m.getLsbD i || decide (i = q)) := by
  have hbit : (decide (i < 6) && !decide (i < q) && decide (i - q = 0)) = decide (i = q) := by
    rw [Bool.eq_iff_iff]
    simp only [Bool.and_eq_true, Bool.not_eq_true', decide_eq_true_eq, decide_eq_false_iff_not]
    omega
  rw [BitVec.getLsbD_or, ← hbit]
  simp

/-- One fragment delivered and stored with FRAGST (R209). -/
theorem exists_exec_fragst (hw : w.length = 32) (hq : q ≤ 5) (hdst : dst.toNat < s.nodeCnt.toNat) :
    ∃ t, exec .fragst (s.withFrame (fragmentOf w dst q).length (fragmentOf w dst q)) = .next t ∧
      s.Collected w t [q] := by
  have hle := fragLen_le q
  have hlen := fragmentOf_length (dst := dst) hw hq
  have hdata := fragmentData_length hw hq
  have hframe : (fragmentOf w dst q ++ zeros (8 - (fragmentOf w dst q).length)).length = 8 := by
    rw [List.length_append, zeros_length]
    omega
  have hheld := holdsFrame_withFrame s (bs := fragmentOf w dst q) (by omega)
  refine ⟨_, complete_ok (fragstBody_of_fragment hw hq hheld hdst), rfl, rfl, fun i hi => ?_, fun a ha => ?_,
    fun a ha hout => ?_⟩
  · simp only [State.retire_rmap, State.withFrame, List.mem_singleton]
    exact getLsbD_or_bit s.rmap q hi
  · simp only [State.retire_mem, State.withFrame, List.mem_singleton]
    rw [Memory.read_writeBytes, hdata, Memory.read_writeBytes_out _ _ _ _ (by unfold reasmBase frameBase; omega)]
    by_cases hcarried : 6 * q ≤ a ∧ a < 6 * q + fragLen q
    · rw [if_pos (by omega), if_pos ((mem_fragment_iff ha hq).1 hcarried), Nat.add_sub_add_left,
        slice_getD _ (by omega), Nat.add_sub_cancel' hcarried.1]
    · rw [if_neg (by omega), if_neg fun h => hcarried ((mem_fragment_iff ha hq).2 h)]
  · simp only [State.retire_mem, State.withFrame]
    rw [Memory.read_writeBytes_out _ _ _ _ (by omega), Memory.read_writeBytes_out _ _ _ _ (by omega)]

/-- Fragments delivered one after the other, by induction on their order. -/
theorem exists_collectFragments (hw : w.length = 32) (hqs : ∀ q ∈ qs, q ≤ 5) (hdst : dst.toNat < s.nodeCnt.toNat) :
    ∃ t, collectFragments w dst qs s = .next t ∧ s.Collected w t qs := by
  induction qs generalizing s with
  | nil => exact ⟨s, rfl, .refl w s⟩
  | cons q qs ih =>
    obtain ⟨t, hexec, ht⟩ := exists_exec_fragst hw (hqs q (by simp)) hdst
    obtain ⟨u, hcollect, hu⟩ := ih (s := t) (fun p hp => hqs p (by simp [hp])) (by rwa [ht.nodeCnt])
    refine ⟨u, ?_, ht.cons hu⟩
    rw [collectFragments, hexec]
    exact hcollect

/-- All six fragments make the map full (R39, R99). -/
theorem State.Collected.rmap_full (h : s.Collected w t qs) (hqs : ∀ q, q < 6 → q ∈ qs) : t.rmap = 0x3F := by
  have hones : ∀ i, i < 6 → (0x3F#6).getLsbD i = true := by decide
  apply BitVec.eq_of_getLsbD_eq
  intro i hi
  rw [h.rmap i hi, decide_eq_true (hqs i hi), Bool.or_true]
  exact (hones i hi).symm

/-- All six fragments fill REASM with the wrapped key (R99). -/
theorem State.Collected.reasmBytes_full (h : s.Collected w t qs) (hw : w.length = 32) (hqs : ∀ q, q < 6 → q ∈ qs) :
    t.reasmBytes = w := by
  apply List.ext_getElem
  · rw [State.reasmBytes, Memory.readBytes_length, hw]
  · intro a ha ha'
    rw [hw] at ha'
    rw [← List.getD_eq_getElem _ 0, ← List.getD_eq_getElem _ 0, State.reasmBytes, Memory.readBytes_getD _ _ _ _ ha',
      h.reasm a ha', if_pos (hqs _ (by omega))]

/-- Collecting fragments leaves the key array. -/
theorem State.Collected.keyArr (h : s.Collected w t qs) {n : Nat} (hn : n ≤ 24) : t.keyArr n = s.keyArr n :=
  Memory.readBytes_congr fun a _ ha => h.kept a (by unfold reasmBase keyBase at *; omega)
    (by unfold frameBase keyBase at *; omega)

end

/-! ## The key recovered -/

/-- Blocks with the same key length and the same bytes of the key in use have the same key (R33). -/
theorem wrapKey_congr {s r : State} (hklen : r.klen = s.klen)
    (hkey : r.keyArr (if s.klen = 0 then 16 else 24) = s.keyArr (if s.klen = 0 then 16 else 24)) :
    r.wrapKey = s.wrapKey := by
  simp only [State.wrapKey, hklen]
  split_ifs at hkey ⊢
  · rw [State.key128, State.key128, hkey]
  · rw [State.key192, State.key192, hkey]

/-- WRAP of 24 bytes leaves their 32 wrapped bytes in BUF, and LEN 32 (R141). -/
theorem wrapped_of_exec {s t : State} (hklen : s.klen.toNat ≤ 1) (hlen : s.len = 24) (h : exec .wrap s = .next t) :
    t.len.toNat = 32 ∧ t.bufBytes 32 = keyWrap (Config.cipher.enc s.wrapKey) s.message := by
  have hn : s.len.toNat = 24 := by rw [hlen]; rfl
  have hwrap : exec .wrap s = _ :=
    complete_ok (wrapBody_of_legal (State.kwKey_of_klen_le hklen) (by omega) (by omega) (by omega))
  have hwrapped : (keyWrap (Config.cipher.enc s.wrapKey) s.message).length = 32 := by
    rw [keyWrap_length, State.message_length, hn]
  obtain rfl := Host.Outcome.next.inj (h.symm.trans hwrap)
  rw [State.retire_len, State.loadBuf_len, hlen, State.retire_bufBytes, State.loadBuf_bufBytes _ _ hwrapped]
  exact ⟨rfl, rfl⟩

/-- ENCFRAG emits fragment `q` of the 32 bytes in BUF for a node in range (R173). -/
theorem encfrag_emits {t : State} {dst : BitVec 6} {q : Nat} (hlen : t.len.toNat = 32) (hq : q ≤ 5)
    (hdst : dst.toNat < t.nodeCnt.toNat) :
    emitsFrame .encfrag { t with fDst := dst.setWidth 8, fFrag := BitVec.ofNat 8 (16 * q) } t.txid
      (fragmentOf (t.bufBytes 32) dst q) := by
  have hle := fragLen_le q
  obtain ⟨r, hr⟩ : ∃ r, r = { t with fDst := dst.setWidth 8, fFrag := BitVec.ofNat 8 (16 * q) } := ⟨_, rfl⟩
  have hin : r.inRange r.fDst = true := by
    rw [hr, State.inRange_iff, BitVec.toNat_setWidth]
    exact (Nat.mod_le _ _).trans_lt hdst
  have hseq : r.fragSeq = q := by
    rw [State.fragSeq_eq, hr, BitVec.toNat_ofNat]
    omega
  have hframe : r.fragmentFrame q = fragmentOf (t.bufBytes 32) dst q := by
    rw [fragmentFrame_eq_fragmentOf (by rw [hr]) hq, hr]
    rfl
  have hbody := encfragBody_of_legal (by rwa [hr]) hin hseq hq
  have htxid : r.txid = t.txid := by rw [hr]
  rw [hframe, htxid] at hbody
  have hlength := fragmentOf_length (dst := dst) (Memory.readBytes_length t.mem bufBase 32) hq
  rw [← hr]
  exact emitsFrame_of_exec (hlength.trans_le (by omega)) (complete_ok hbody)

/-- UNWRAPR of the wrapped form of a block's 24 bytes, under that block's key, recovers them (R143). -/
theorem unwrapr_of_wrapped {s u : State} (hlen : s.len = 24) (hkey : u.kwKey = some s.wrapKey) (hmap : u.rmap = 0x3F)
    (hreasm : u.reasmBytes = keyWrap (Config.cipher.enc s.wrapKey) s.message) :
    ∃ v, exec .unwrapr u = .next v ∧ v.errCode = 0 ∧ v.len = 24 ∧ v.bufBytes 24 = s.bufBytes 24 := by
  have hmsg : s.message = s.bufBytes 24 := by
    rw [State.message, hlen]
    rfl
  have hn : s.message.length = 24 := by
    rw [State.message_length, hlen]
    rfl
  have hout : keyUnwrap (Config.cipher.dec s.wrapKey) u.reasmBytes = (true, s.message) := by
    rw [hreasm]
    exact keyUnwrap_keyWrap _ _ (cipher_dec_enc _) _ (by rw [hn])
  have hunwrap : exec .unwrapr u = _ := complete_ok (unwraprBody_of_legal hkey hmap hout)
  obtain ⟨v, hv, hfields, hbuf, -⟩ := loadsBuf_of_exec hn hunwrap
  exact ⟨v, hv, by rw [hfields], by rw [hfields], hbuf.trans hmsg⟩

/-- Settles O55: the fragments fill REASM with what WRAP left in BUF, under a key the delivery does not touch, and
unwrap undoes wrap. -/
theorem deliveredKeyIsRecovered : Obligations.DeliveredKeyIsRecovered := by
  intro s t r dst order hklen hlen hwrap hrklen hrkey hdst horder
  obtain ⟨htlen, htbuf⟩ := wrapped_of_exec hklen hlen hwrap
  have hw : (t.bufBytes 32).length = 32 := Memory.readBytes_length _ _ _
  have hsix : ∀ q, q ∈ order ↔ q < 6 := fun q => by
    rw [horder.mem_iff]
    simp
    omega
  refine ⟨fun q hq hbelow => ?_, ?_⟩
  · obtain ⟨f, hexec, hf, hbytes, -⟩ := encfrag_emits htlen (Nat.le_of_lt_succ hq) hbelow
    have hle := fragLen_le q
    have hlength := fragmentOf_length (dst := dst) hw (Nat.le_of_lt_succ hq)
    refine ⟨f, hexec, by rw [hf], ?_, hbytes⟩
    rw [hf, BitVec.toNat_ofNat, Nat.mod_eq_of_lt (by omega)]
  · obtain ⟨u, hcollect, hu⟩ := exists_collectFragments hw (fun q hq => Nat.le_of_lt_succ ((hsix q).1 hq)) hdst
    have hall : ∀ q, q < 6 → q ∈ order := fun q => (hsix q).2
    have huklen : u.klen = s.klen := hu.klen.trans hrklen
    have hukey : u.wrapKey = s.wrapKey := wrapKey_congr huklen ((hu.keyArr (by split <;> decide)).trans hrkey)
    have hkwKey : u.kwKey = some s.wrapKey := hukey ▸ State.kwKey_of_klen_le (huklen ▸ hklen)
    obtain ⟨v, hv⟩ := unwrapr_of_wrapped hlen hkwKey (hu.rmap_full hall) ((hu.reasmBytes_full hw hall).trans htbuf)
    exact ⟨u, v, hcollect, hv⟩

end Sys2Proof.Machine
end

section
/-! The frame encoders (R171 to R179): byte 0 of a crypt frame in the words of R88, what an encoder that checks one
NodeId or two emits or raises, and the bodies of ENCFRAG. -/

namespace Sys2Proof.Machine

/-! ## The bytes of a payload -/

section
variable (s : State)

/-- Byte 0 of a crypt frame: the type shifted to the top, and the low six bits of F_DST (R88, R170). -/
theorem State.byte0_eq_shift_or (ty : BitVec 2) : s.byte0 ty = ((ty.setWidth 8) <<< 6) ||| (s.fDst &&& 0x3F) := by
  have hmask : ∀ j < 8, (0x3F : Byte).getLsbD j = decide (j < 6) := by decide
  apply BitVec.eq_of_getLsbD_eq
  intro j hj
  rw [State.byte0, BitVec.getLsbD_append, BitVec.getLsbD_or, BitVec.getLsbD_and, BitVec.getLsbD_shiftLeft, hmask j hj]
  by_cases hlow : j < 6
  · simp [hlow]
  · have htop : j - 6 < 8 := by omega
    simp [hlow, hj, htop]

/-- `LE_n` sees only the low `n` bytes of an integer (R4). -/
theorem leBytes_mod (n v : Nat) : leBytes n (v % 256 ^ n) = leBytes n v := by
  have h := leBytes_fromLE (leBytes n v)
  rwa [leBytes_length, fromLE_leBytes] at h

/-- `F_VALUE[15:0]`, the two bytes of a 16-bit signal (R93). -/
theorem leBytes_value16 : leBytes 2 (s.fValue.extractLsb' 0 16).toNat = leBytes 2 s.fValue.toNat := by
  rw [BitVec.extractLsb'_toNat, Nat.shiftRight_zero]
  exact leBytes_mod 2 _

/-- The data of fragment `q` is a slice of the wrapped key in `BUF[0..32)` (R91, R173). -/
theorem State.fragmentFrame_eq_slice {q : Nat} (hq : q ≤ 5) :
    s.fragmentFrame q = s.byte0 2 :: BitVec.ofNat 8 (q * 16 + fragLen q) ::
      slice (s.bufBytes 32) (6 * q) (6 * q + fragLen q) := by
  rw [State.bufBytes, slice_readBytes _ _ _ _ _ (fragLen_fits hq), Nat.mul_comm q 16]
  rfl

end

/-! ## Encoders that check their NodeIds -/

section
variable {s : State} {i : Instr} {ty : BitVec 2} {bs : List Byte}

/-- An encoder to one node in range emits its frame under TXID (R170). -/
theorem emitsFrame_of_encodeTo (hexec : exec i s = complete s id (encodeTo s (s.byte0 ty :: bs)))
    (hdst : s.fDst.toNat < s.nodeCnt.toNat) (hlen : bs.length ≤ 7) :
    emitsFrame i s s.txid (((ty.setWidth 8) <<< 6 ||| (s.fDst &&& 0x3F)) :: bs) := by
  rw [← s.byte0_eq_shift_or]
  exact emitsFrame_of_exec (Nat.succ_le_succ hlen) (hexec.trans (complete_ok (if_pos ((s.inRange_iff _).2 hdst))))

/-- An encoder to a node out of range ends in RANGE (R170). -/
theorem endsInError_of_encodeTo (hexec : exec i s = complete s id (encodeTo s bs))
    (hdst : ¬ s.fDst.toNat < s.nodeCnt.toNat) : endsInError i s 4 :=
  endsInError_of_exec (c := .range) (hexec.trans (complete_error (if_neg (mt (s.inRange_iff _).1 hdst))))

/-- The two checks of an encoder that forwards a NodeId (R170). -/
theorem inRange_dst_fwd_iff : (s.inRange s.fDst = true ∧ s.inRange s.fFwd = true) ↔
    s.fDst.toNat < s.nodeCnt.toNat ∧ s.fFwd.toNat < s.nodeCnt.toNat :=
  and_congr (s.inRange_iff _) (s.inRange_iff _)

/-- An encoder that forwards a NodeId emits its frame under TXID when both nodes are in range (R170). -/
theorem emitsFrame_of_encodeForwarding (hexec : exec i s = complete s id (encodeForwarding s (s.byte0 ty :: bs)))
    (hin : s.fDst.toNat < s.nodeCnt.toNat ∧ s.fFwd.toNat < s.nodeCnt.toNat) (hlen : bs.length ≤ 7) :
    emitsFrame i s s.txid (((ty.setWidth 8) <<< 6 ||| (s.fDst &&& 0x3F)) :: bs) := by
  rw [← s.byte0_eq_shift_or]
  exact emitsFrame_of_exec (Nat.succ_le_succ hlen) (hexec.trans (complete_ok (if_pos (inRange_dst_fwd_iff.2 hin))))

/-- It ends in RANGE when one of them is not (R170). -/
theorem endsInError_of_encodeForwarding (hexec : exec i s = complete s id (encodeForwarding s bs))
    (hin : ¬ (s.fDst.toNat < s.nodeCnt.toNat ∧ s.fFwd.toNat < s.nodeCnt.toNat)) : endsInError i s 4 :=
  endsInError_of_exec (c := .range) (hexec.trans (complete_error (if_neg (mt inRange_dst_fwd_iff.1 hin))))

end

/-- Settles O46: each command is an encoder to one node, or one that forwards a NodeId. -/
theorem cryptFrameEncodersEmitTheirFormat : Obligations.CryptFrameEncodersEmitTheirFormat := by
  intro s b0 value16 dstOk fwdOk
  refine ⟨fun hin => ⟨?encrq, ?encch, ?encchN⟩, fun hout => ?badForwarding,
    fun hdst => ⟨?encack, ?encsig16, ?encareq, ?encareqM⟩, fun hout => ?badNode⟩
  case encrq => exact emitsFrame_of_encodeForwarding (ty := 0) rfl hin (by simp)
  case encch => exact emitsFrame_of_encodeForwarding (ty := 1) rfl hin (by simp)
  case encchN => exact emitsFrame_of_encodeForwarding (ty := 1) rfl hin (by simp [State.nonce])
  case badForwarding =>
    exact ⟨endsInError_of_encodeForwarding rfl hout, endsInError_of_encodeForwarding rfl hout,
      endsInError_of_encodeForwarding rfl hout⟩
  case encack => exact emitsFrame_of_encodeTo (ty := 2) rfl hdst (by simp)
  case encsig16 =>
    have h := emitsFrame_of_encodeTo (i := .encsig16) (ty := 3) rfl hdst (by simp [State.tagBytes])
    rwa [← leBytes_value16] at h
  case encareq => exact emitsFrame_of_encodeTo (ty := 3) rfl hdst (by simp)
  case encareqM => exact emitsFrame_of_encodeTo (ty := 3) rfl hdst (by simp)
  case badNode =>
    exact ⟨endsInError_of_encodeTo rfl hout, endsInError_of_encodeTo rfl hout, endsInError_of_encodeTo rfl hout,
      endsInError_of_encodeTo rfl hout⟩

/-! ## ENCFRAG -/

section
variable {s : State} {q l : Nat}

/-- ENCFRAG takes a wrapped key of 32 bytes and no other length (R173). -/
theorem encfragBody_of_badLen (hlen : s.len.toNat ≠ 32) : encfragBody s = .error .badlen := if_pos hlen

/-- ENCFRAG to a node out of range (R173). -/
theorem encfragBody_of_badNode (hlen : s.len.toNat = 32) (hdst : s.inRange s.fDst = false) :
    encfragBody s = .error .range := by
  rw [encfragBody, if_neg (not_not.2 hlen), hdst]
  rfl

/-- ENCFRAG of a fragment that does not exist (R173). -/
theorem encfragBody_of_badSeq (hlen : s.len.toNat = 32) (hdst : s.inRange s.fDst = true) (hseq : 5 < s.fragSeq) :
    encfragBody s = .error .range := by
  rw [encfragBody, if_neg (not_not.2 hlen), if_pos hdst, if_pos hseq]

/-- ENCFRAG emits fragment SEQ, 0 to 5, of the wrapped key under TXID (R173). -/
theorem emitsFrame_encfrag (hlen : s.len.toNat = 32) (hdst : s.inRange s.fDst = true) (hseq : s.fragSeq = q)
    (hq : q ≤ 5) (hl : fragLen q = l) :
    emitsFrame .encfrag s s.txid ([((2 : Byte) <<< 6) ||| (s.fDst &&& 0x3F), BitVec.ofNat 8 (q * 16 + l)] ++
      slice (s.bufBytes 32) (6 * q) (6 * q + l)) := by
  subst hl
  have hbody := encfragBody_of_legal hlen hdst hseq hq
  rw [s.fragmentFrame_eq_slice hq, s.byte0_eq_shift_or] at hbody
  have hdata := fragmentData_length (Memory.readBytes_length s.mem bufBase 32) hq
  have hle := fragLen_le q
  refine emitsFrame_of_exec ?_ (complete_ok hbody)
  rw [List.length_append, State.bufBytes, hdata]
  exact Nat.add_le_add_left hle 2

end

/-- Settles O47: the four cases of the body; the length of a fragment is 6, of the last one 2. -/
theorem fragmentEncoderSplitsTheWrappedKey : Obligations.FragmentEncoderSplitsTheWrappedKey := by
  intro s q b0
  have hseq : s.fragSeq = q := s.fragSeq_eq
  have h32 : s.len = 32 → s.len.toNat = 32 := fun h => by rw [h]; rfl
  refine ⟨fun hlen => ?badLen, fun hlen hout => ?badNode, fun hlen hdst => ?legal⟩
  case badLen =>
    have hne : s.len.toNat ≠ 32 := fun h => hlen (BitVec.eq_of_toNat_eq h)
    exact complete_error (encfragBody_of_badLen hne)
  case badNode =>
    have hdst : s.inRange s.fDst = false := decide_eq_false (Nat.not_lt.2 hout)
    exact complete_error (encfragBody_of_badNode (h32 hlen) hdst)
  case legal =>
    have hin := (s.inRange_iff _).2 hdst
    refine ⟨fun hbad => ?_, fun hlt => ?_, fun hlast => ?_⟩
    · exact complete_error (encfragBody_of_badSeq (h32 hlen) hin (hseq ▸ hbad))
    · exact emitsFrame_encfrag (h32 hlen) hin hseq hlt.le (if_pos hlt)
    · exact emitsFrame_encfrag (h32 hlen) hin (hseq.trans hlast) le_rfl rfl

/-! ## Frames under F_CANID -/

/-- Settles O48: these encoders check nothing, so each body is the emission itself. -/
theorem identifierFrameEncodersEmitTheirFormat : Obligations.IdentifierFrameEncodersEmitTheirFormat := by
  intro s
  exact ⟨emitsFrame_of_exec (by simp) (complete_ok rfl), emitsFrame_of_exec (by simp) (complete_ok rfl),
    emitsFrame_of_exec (by simp) (complete_ok rfl), emitsFrame_of_exec (by simp) (complete_ok rfl)⟩

end Sys2Proof.Machine
end

section
/-! The frame decoders (R200 to R210): the formats of crypt frames in the words of R88 to R94 are the ones DECCRYPT
recognises and FRAGST stores, and what a decoder leaves of a frame of a format or of none. -/

namespace Sys2Proof.Machine

/-! ## A decoder's two ends -/

section
variable {i : Instr} {s : State} {o : Option Kind} {f : Kind}

/-- A decoder that recognised a format leaves the fields of that format, its KIND, and nothing else (R200, R204). -/
theorem decodesTo_of_decodeAs (hexec : exec i s = complete s State.clearKind (decodeAs s o)) (ho : o = some f) :
    decodesTo i s (kindBits f) (s.writeFields f) := by
  subst ho
  exact hexec

/-- A decoder that recognised none clears KIND (R200). -/
theorem endsMalformed_of_decodeAs (hexec : exec i s = complete s State.clearKind (decodeAs s o)) (ho : o = none) :
    endsMalformed i s := by
  subst ho
  exact hexec

end

/-! ## The formats of crypt frames -/

/-- The message type in byte 0 of a crypt frame of a format (R88); the formats with an identifier of their own have no
byte 0. -/
def messageType : Kind → BitVec 2
  | .reqchal => 0
  | .chal | .chalNonce => 1
  | .frag | .ack => 2
  | .sig16 | .areq | .areqMac => 3
  | .none | .sig32 | .plain | .time | .timeMac => 0

section
variable {s : State} {k : Bool} {f : Kind} {n : Byte}

theorem frameType_eq_iff {ty : BitVec 2} : s.frameType = ty ↔ (s.fb 0).toNat / 64 = ty.toNat := by
  rw [← BitVec.toNat_inj, s.frameType_toNat]

theorem frameDst_toNat : s.frameDst.toNat = (s.fb 0).toNat % 64 := by
  rw [State.frameDst, BitVec.toNat_append, BitVec.extractLsb'_toNat]
  simp

theorem frameDst_eq_ofNat : s.frameDst = BitVec.ofNat 8 ((s.fb 0).toNat % 64) := by
  rw [← frameDst_toNat, BitVec.ofNat_toNat, BitVec.setWidth_eq]

/-- The node of byte 0 is below NODECNT exactly when the decoder's check passes (R202). -/
theorem inRange_frameDst_iff : s.inRange s.frameDst = true ↔ s.nodeBelow ((s.fb 0).toNat % 64) := by
  rw [s.inRange_iff, frameDst_toNat, State.nodeBelow]

theorem nodeBelow_of_checked (h : ¬ (!s.inRange n) = true) : s.nodeBelow n.toNat :=
  (s.inRange_iff n).1 (by simpa using h)

theorem dstBelow_of_checked (h : ¬ (!s.inRange s.frameDst) = true) : s.nodeBelow ((s.fb 0).toNat % 64) :=
  inRange_frameDst_iff.1 (by simpa using h)

/-- FragCheck in the numbers of byte 1: SEQ its high, FLEN its low four bits (R203). -/
theorem fragCheck_iff_byte1 : s.fragCheck = true ↔
    2 + (s.fb 1).toNat % 16 ≤ s.frameDlc.toNat ∧
      (((s.fb 1).toNat / 16 ≤ 4 ∧ (s.fb 1).toNat % 16 = 6) ∨ ((s.fb 1).toNat / 16 = 5 ∧ (s.fb 1).toNat % 16 = 2)) := by
  rw [s.fragCheck_iff, s.frameSeq_eq, s.frameFlen_eq]
  exact and_iff_right_of_imp fun h => by omega

/-- Two bits that are not 0, 1 or 2 are 3: the last of the message types (R88). -/
theorem type_eq_three_of_ne (h0 : s.frameType ≠ 0) (h1 : s.frameType ≠ 1) (h2 : s.frameType ≠ 2) :
    (s.fb 0).toNat / 64 = 3 := by
  have h3 : ∀ ty : BitVec 2, ty ≠ 0 → ty ≠ 1 → ty ≠ 2 → ty = 3 := by decide
  exact frameType_eq_iff.1 (h3 _ h0 h1 h2)

/-- A format DECCRYPT recognises is the format of the frame: one case for each branch that names one (R205). -/
theorem frameFits_of_cryptKind (h : s.cryptKind k = some f) : s.frameFits k f := by
  simp only [State.cryptKind] at h
  split_ifs at h <;> cases h
  next _ hdst hty hdlc hfwd =>
    exact ⟨dstBelow_of_checked hdst, frameType_eq_iff.1 hty, not_not.1 hdlc, nodeBelow_of_checked hfwd⟩
  next _ hdst _ hty _ hfwd hdlc =>
    exact ⟨dstBelow_of_checked hdst, frameType_eq_iff.1 hty, hdlc, nodeBelow_of_checked hfwd⟩
  next _ hdst _ hty hdlc hfwd hne =>
    exact ⟨dstBelow_of_checked hdst, frameType_eq_iff.1 hty, not_not.1 fun h8 => hdlc ⟨hne, h8⟩,
      nodeBelow_of_checked hfwd⟩
  next hdlc hdst _ _ hty hk hcheck =>
    exact ⟨dstBelow_of_checked hdst, frameType_eq_iff.1 hty, hk, by omega, fragCheck_iff_byte1.1 hcheck⟩
  next _ hdst _ _ hty hk hdlc =>
    exact ⟨dstBelow_of_checked hdst, frameType_eq_iff.1 hty, eq_false_of_ne_true hk, not_not.1 hdlc⟩
  next _ hdst h0 h1 h2 hdlc => exact ⟨dstBelow_of_checked hdst, type_eq_three_of_ne h0 h1 h2, hdlc⟩
  next _ hdst h0 h1 h2 _ hdlc => exact ⟨dstBelow_of_checked hdst, type_eq_three_of_ne h0 h1 h2, hdlc⟩
  next _ hdst h0 h1 h2 _ _ hdlc => exact ⟨dstBelow_of_checked hdst, type_eq_three_of_ne h0 h1 h2, hdlc⟩

/-- The format of a frame is the one DECCRYPT recognises (R205). -/
theorem cryptKind_of_frameFits (h : s.frameFits k f) : s.cryptKind k = some f := by
  obtain ⟨hbelow, hform⟩ := h
  have hdst := inRange_frameDst_iff.2 hbelow
  cases f with
  | reqchal | chal | chalNonce =>
    obtain ⟨hty, hdlc, hfwd⟩ := hform
    simp [State.cryptKind, hdst, frameType_eq_iff, hty, hdlc, (s.inRange_iff _).2 hfwd]
  | frag =>
    obtain ⟨hty, hk, hdlc, hcheck⟩ := hform
    have hlen : ¬ (s.frameDlc.toNat = 0 ∨ 8 < s.frameDlc.toNat) := by omega
    simp [State.cryptKind, hdst, frameType_eq_iff, hty, hk, hlen, fragCheck_iff_byte1.2 hcheck]
  | ack =>
    obtain ⟨hty, hk, hdlc⟩ := hform
    simp [State.cryptKind, hdst, frameType_eq_iff, hty, hk, hdlc]
  | sig16 | areq | areqMac =>
    obtain ⟨hty, hdlc⟩ := hform
    simp [State.cryptKind, hdst, frameType_eq_iff, hty, hdlc]
  | none | sig32 | plain | time | timeMac => exact hform.elim

/-- Byte 0 of a frame of a format carries the format's message type (R88). -/
theorem frameType_of_frameFits (h : s.frameFits k f) : s.frameType = messageType f := by
  obtain ⟨-, hform⟩ := h
  cases f with
  | reqchal | chal | chalNonce | frag | ack | sig16 | areq | areqMac =>
    obtain ⟨hty, -⟩ := hform
    exact frameType_eq_iff.2 hty
  | none | sig32 | plain | time | timeMac => exact hform.elim

/-- FRAGST stores exactly the frames that are fragments (R209). -/
theorem fragAccepted_iff : s.fragAccepted = true ↔ s.frameFits true .frag := by
  simp only [State.fragAccepted, Bool.and_eq_true, Bool.not_eq_true', Bool.or_eq_false_iff, beq_iff_eq,
    inRange_frameDst_iff, frameType_eq_iff, fragCheck_iff_byte1]
  constructor
  · rintro ⟨⟨⟨⟨-, hdlc⟩, hdst⟩, hty⟩, hcheck⟩
    exact ⟨hdst, hty, rfl, by simpa using hdlc, hcheck⟩
  · rintro ⟨hdst, hty, -, hdlc, hcheck⟩
    have hne : s.frameDlc.toNat ≠ 0 := by omega
    exact ⟨⟨⟨⟨by simpa using hne, by simpa using hdlc⟩, hdst⟩, hty⟩, hcheck⟩

end

/-! ## DECCRYPT -/

section
variable {s : State} {k : Bool} {f : Kind}

/-- The fields of a crypt format, its type and its node among them (R204). -/
theorem writeFields_of_frameFits (h : s.frameFits k f) :
    s.writeFields f = { s.writeFields f with
      fType := messageType f, fDst := BitVec.ofNat 8 ((s.fb 0).toNat % 64) } := by
  rw [← frameType_of_frameFits h, ← frameDst_eq_ofNat]
  obtain ⟨-, hform⟩ := h
  cases f with
  | reqchal | chal | chalNonce | frag | ack | sig16 | areq | areqMac => rfl
  | none | sig32 | plain | time | timeMac => exact hform.elim

/-- A frame of a crypt format decodes to the fields of that format (R205). -/
theorem decodesTo_of_frameFits (h : s.frameFits k f) :
    decodesTo (if k then .deccryptK else .deccrypt) s (kindBits f)
      { s.writeFields f with fType := messageType f, fDst := BitVec.ofNat 8 ((s.fb 0).toNat % 64) } := by
  rw [← writeFields_of_frameFits h]
  cases k <;> exact decodesTo_of_decodeAs rfl (cryptKind_of_frameFits h)

end

/-- Settles O49: the formats are the ones DECCRYPT recognises, so a frame of none is MALFORMED. -/
theorem deccryptRecognisesTheFormats : Obligations.DeccryptRecognisesTheFormats := by
  intro s k i d word
  refine ⟨decodesTo_of_frameFits, decodesTo_of_frameFits, decodesTo_of_frameFits, decodesTo_of_frameFits,
    decodesTo_of_frameFits, decodesTo_of_frameFits, decodesTo_of_frameFits, decodesTo_of_frameFits, fun hnone => ?_⟩
  have hkind : s.cryptKind k = none := Option.eq_none_iff_forall_ne_some.2 fun f h => hnone f (frameFits_of_cryptKind h)
  cases k <;> exact endsMalformed_of_decodeAs rfl hkind

/-! ## The frames with an identifier of their own -/

/-- Settles O50: each decoder's test of the length, as a number or as FRAME_DLC. -/
theorem identifierFrameDecodersTakeTheirLengths : Obligations.IdentifierFrameDecodersTakeTheirLengths := by
  intro s word
  have hdlc : ∀ n : BitVec 4, s.frameDlc.toNat = n.toNat ↔ s.frameDlc = n := fun n => BitVec.toNat_inj
  refine ⟨fun h8 => ?sig32, fun h8 => ?notSig32, fun h4 => ?plain, fun h4 => ?notPlain, fun h4 => ?time,
    fun h8 => ?timeMac, fun h4 h8 => ?notTime⟩
  case sig32 => exact decodesTo_of_decodeAs (f := .sig32) rfl (if_pos ((hdlc 8).2 h8))
  case notSig32 => exact endsMalformed_of_decodeAs rfl (if_neg (mt (hdlc 8).1 h8))
  case plain => exact decodesTo_of_decodeAs (f := .plain) rfl (if_pos ((hdlc 4).2 h4))
  case notPlain => exact endsMalformed_of_decodeAs rfl (if_neg (mt (hdlc 4).1 h4))
  case time => exact decodesTo_of_decodeAs (f := .time) rfl (if_pos ((hdlc 4).2 h4))
  case timeMac =>
    have h4 : s.frameDlc ≠ 4 := by rw [h8]; decide
    exact decodesTo_of_decodeAs (f := .timeMac) rfl ((if_neg (mt (hdlc 4).1 h4)).trans (if_pos ((hdlc 8).2 h8)))
  case notTime =>
    exact endsMalformed_of_decodeAs rfl ((if_neg (mt (hdlc 4).1 h4)).trans (if_neg (mt (hdlc 8).1 h8)))

/-! ## The reassembly -/

/-- FRAGST on a frame it accepts: the fields of a fragment, its data and its bit of RMAP (R209). -/
theorem fragstBody_of_accepted {s : State} (h : s.fragAccepted = true) :
    fragstBody s = .ok { s with
      fType := s.frameType, fDst := s.frameDst, fFrag := s.fb 1, kind := 4, rmap := s.storeFragment.rmap,
      mem := s.storeFragment.mem } := by
  have hstore : (s.writeFields .frag).storeFragment =
      { s.writeFields .frag with rmap := s.storeFragment.rmap, mem := s.storeFragment.mem } := rfl
  rw [fragstBody, if_pos h, hstore]
  rfl

/-- Settles O51: FRAGST stores the frames that are fragments, and rejects the others. -/
theorem fragstStoresTheFragment : Obligations.FragstStoresTheFragment := by
  intro s q flen
  refine ⟨fun hfit => ?stored, fun hfit => ?malformed⟩
  case stored =>
    have hty : s.frameType = 2 := frameType_of_frameFits hfit
    have hseq : s.frameSeq = q := s.frameSeq_eq
    have hflen : s.frameFlen = flen := s.frameFlen_eq
    obtain ⟨hdata, houtside⟩ := s.storeFragment_reads
    rw [← hseq, ← hflen, ← frameDst_eq_ofNat, ← hty]
    exact ⟨_, complete_ok (fragstBody_of_accepted (fragAccepted_iff.2 hfit)), rfl, hdata, houtside⟩
  case malformed => exact complete_error (if_neg (mt fragAccepted_iff.1 hfit))

/-- A command whose completion fills REASM and sets RMAP has that as its effect, and nothing else but the lifecycle
fields (R210). -/
theorem loadsReasm_of_exec {i : Instr} {s : State} {bs : List Byte} {m : BitVec 6} (hl : bs.length = 32)
    (h : exec i s = .next ({ s.writeReasm 0 bs with rmap := m }.retire .ok)) :
    ∃ t, exec i s = .next t ∧ t = { s with mem := t.mem, rmap := m, errCode := 0, busy := false, done := true } ∧
      t.reasmBytes = bs ∧ Memory.sameOutside s.mem t.mem 0x140 32 := by
  have hread := s.mem.readBytes_writeBytes_same reasmBase bs
  rw [hl] at hread
  exact ⟨_, h, rfl, hread, s.mem.sameOutside_writeBytes reasmBase hl⟩

/-- Settles O52: RCLR writes zeros over REASM. -/
theorem rclrClearsTheReassembly : Obligations.RclrClearsTheReassembly := fun _ =>
  loadsReasm_of_exec (zeros_length 32) (complete_ok rfl)

section
variable {w : List Byte} {dst : BitVec 6} {order qs : List Nat} {s t : State}

/-- An order of delivery holds each of the six fragments and nothing else (R99). -/
theorem mem_order_iff (horder : order.Perm [0, 1, 2, 3, 4, 5]) (q : Nat) : q ∈ order ↔ q < 6 := by
  simp only [horder.mem_iff, List.mem_cons, List.not_mem_nil, or_false]
  omega

/-- A fragment stored with FRAGST leaves its KIND and no error (R209). -/
theorem status_of_exec_fragst {q : Nat} (hw : w.length = 32) (hq : q ≤ 5) (hdst : dst.toNat < s.nodeCnt.toNat)
    (h : exec .fragst (s.withFrame (fragmentOf w dst q).length (fragmentOf w dst q)) = .next t) :
    t.kind = 4 ∧ t.errCode = 0 := by
  have hle := fragLen_le q
  have hlen := fragmentOf_length (dst := dst) hw hq
  have hheld := holdsFrame_withFrame s (bs := fragmentOf w dst q) (by omega)
  have hstored : exec .fragst (s.withFrame (fragmentOf w dst q).length (fragmentOf w dst q)) = _ :=
    complete_ok (fragstBody_of_fragment hw hq hheld hdst)
  obtain rfl := Host.Outcome.next.inj (h.symm.trans hstored)
  exact ⟨rfl, rfl⟩

/-- So does a delivery of one fragment or more, by induction on their order. -/
theorem status_of_collectFragments (hw : w.length = 32) (hqs : ∀ q ∈ qs, q ≤ 5) (hdst : dst.toNat < s.nodeCnt.toNat)
    (hstart : qs = [] → s.kind = 4 ∧ s.errCode = 0) (h : collectFragments w dst qs s = .next t) :
    t.kind = 4 ∧ t.errCode = 0 := by
  induction qs generalizing s with
  | nil =>
    cases h
    exact hstart rfl
  | cons q qs ih =>
    have hq : q ≤ 5 := hqs q (by simp)
    obtain ⟨u, hexec, hu⟩ := exists_exec_fragst hw hq hdst
    rw [collectFragments, hexec] at h
    exact ih (fun p hp => hqs p (by simp [hp])) (by rwa [hu.nodeCnt])
      (fun _ => status_of_exec_fragst hw hq hdst hexec) h

/-- Settles O54: whatever their order, the fragments collected are all six. -/
theorem fragmentOrderDoesNotMatter : Obligations.FragmentOrderDoesNotMatter := by
  intro w dst order s hw hdst horder
  have hqs : ∀ q ∈ order, q ≤ 5 := fun q hq => Nat.le_of_lt_succ ((mem_order_iff horder q).1 hq)
  have hall : ∀ q, q < 6 → q ∈ order := fun q => (mem_order_iff horder q).2
  have hne : order ≠ [] := List.ne_nil_of_mem (hall 0 (by decide))
  obtain ⟨t, hcollect, ht⟩ := exists_collectFragments hw hqs hdst
  obtain ⟨hkind, herr⟩ := status_of_collectFragments hw hqs hdst (fun h => absurd h hne) hcollect
  refine ⟨t, hcollect, ht.reasmBytes_full hw hall, ht.rmap_full hall, hkind, herr, fun a hlo hhi => ?_,
    ht.keyArr le_rfl⟩
  exact ht.kept a hhi fun hframe => by
    unfold frameBase at hframe
    omega

end

end Sys2Proof.Machine
end

section
/-! The builders of MAC plaintexts and of the key-wrap plaintext (R240 to R246): what a builder that checks two NodeIds
leaves or raises, and the two cases of PTSKEY's body. -/

namespace Sys2Proof.Machine

/-! ## MAC plaintexts -/

section
variable {s : State} {i : Instr} {bs : List Byte}

/-- The two checks of a builder of a plaintext between two nodes (R240). -/
theorem inRange_src_dst_iff : (s.inRange s.fSrc = true ∧ s.inRange s.fDst = true) ↔
    s.fSrc.toNat < s.nodeCnt.toNat ∧ s.fDst.toNat < s.nodeCnt.toNat :=
  and_congr (s.inRange_iff _) (s.inRange_iff _)

/-- A builder between two nodes in range leaves its plaintext at the start of BUF (R240). -/
theorem buildsPlaintext_of_buildBetween (hexec : exec i s = complete s id (buildBetween s bs))
    (hin : s.fSrc.toNat < s.nodeCnt.toNat ∧ s.fDst.toNat < s.nodeCnt.toNat) : buildsPlaintext i s bs :=
  buildsPlaintext_of_exec (hexec.trans (complete_ok (if_pos (inRange_src_dst_iff.2 hin))))

/-- It ends in RANGE, and writes nothing, when one of them is not (R240). -/
theorem endsInError_of_buildBetween (hexec : exec i s = complete s id (buildBetween s bs))
    (hin : ¬ (s.fSrc.toNat < s.nodeCnt.toNat ∧ s.fDst.toNat < s.nodeCnt.toNat)) : endsInError i s 4 :=
  endsInError_of_exec (c := .range) (hexec.trans (complete_error (if_neg (mt inRange_src_dst_iff.1 hin))))

end

/-- Settles O56: PTSIG16, PTACK and PTAREQ are builders between two nodes, and PTSIG16 binds the low half of F_VALUE. -/
theorem nodePlaintextBuildersBindTheirFields : Obligations.NodePlaintextBuildersBindTheirFields := by
  intro s head ok
  refine ⟨fun hin => ⟨?ptsig16, ?ptack, ?ptareq⟩, fun hout => ?badNode⟩
  case ptsig16 =>
    rw [leBytes_value16]
    exact buildsPlaintext_of_buildBetween rfl hin
  case ptack => exact buildsPlaintext_of_buildBetween rfl hin
  case ptareq => exact buildsPlaintext_of_buildBetween rfl hin
  case badNode =>
    exact ⟨endsInError_of_buildBetween rfl hout, endsInError_of_buildBetween rfl hout,
      endsInError_of_buildBetween rfl hout⟩

/-- Settles O57: PTSIG32 and PTTIME place no NodeId, so no state makes them end in an error. -/
theorem identifierPlaintextBuildersBindTheirFields : Obligations.IdentifierPlaintextBuildersBindTheirFields := fun _ =>
  ⟨buildsPlaintext_of_exec (complete_ok rfl), buildsPlaintext_of_exec (complete_ok rfl)⟩

/-! ## The key-wrap plaintext -/

section
variable {s : State}

/-- PTSKEY for two nodes in range puts their NodeIds and the nonce after the session key (R246). -/
theorem ptskeyBody_of_inRange (hin : s.fDst.toNat < s.nodeCnt.toNat ∧ s.fFwd.toNat < s.nodeCnt.toNat) :
    ptskeyBody s = .ok { s.writeBuf 16 ([s.fDst, s.fFwd] ++ s.nonce) with len := 24 } :=
  if_pos (inRange_dst_fwd_iff.2 hin)

/-- It raises RANGE when one of them is not (R246). -/
theorem ptskeyBody_of_not_inRange (hout : ¬ (s.fDst.toNat < s.nodeCnt.toNat ∧ s.fFwd.toNat < s.nodeCnt.toNat)) :
    ptskeyBody s = .error .range :=
  if_neg (mt inRange_dst_fwd_iff.1 hout)

/-- The two NodeIds and the nonce fill the 8 bytes after the session key (R246). -/
theorem ptskey_tail_length : ([s.fDst, s.fFwd] ++ s.nonce).length = 8 := by
  simp [State.nonce]

end

/-- Settles O58: PTSKEY writes the 8 bytes of BUF from byte 16 on when both nodes are in range. -/
theorem ptskeyCompletesTheWrapPlaintext : Obligations.PtskeyCompletesTheWrapPlaintext := by
  intro s ok
  refine ⟨fun hin => ?built, fun hout => ?badNode⟩
  case built =>
    have hread := s.mem.readBytes_writeBytes_same 0x110 ([s.fDst, s.fFwd] ++ s.nonce)
    rw [ptskey_tail_length] at hread
    exact ⟨_, complete_ok (ptskeyBody_of_inRange hin), rfl, hread,
      s.mem.sameOutside_writeBytes 0x110 ptskey_tail_length⟩
  case badNode => exact endsInError_of_exec (c := .range) (complete_error (ptskeyBody_of_not_inRange hout))

end Sys2Proof.Machine
end

section
/-! The words that name no command (R80, R83, R261): the legality check of the fields, in numbers, and its agreement with
the decoder. -/

namespace Sys2Proof

/-! ## The legality check in numbers -/

/-- The opcodes R83 does not reserve are the four ranges of R81. -/
theorem opcodeAssigned_iff (o : BitVec 8) :
    opcodeAssigned o = true ↔
      o.toNat ≤ 0x07 ∨ (0x10 ≤ o.toNat ∧ o.toNat ≤ 0x18) ∨ (0x20 ≤ o.toNat ∧ o.toNat ≤ 0x25) ∨
        (0x30 ≤ o.toNat ∧ o.toNat ≤ 0x35) := by
  simp only [opcodeAssigned, Bool.not_eq_true', Bool.or_eq_false_iff, Bool.and_eq_false_iff, decide_eq_false_iff_not]
  omega

/-- The five opcodes with a flag (R82). -/
theorem flagDefined_iff (o : BitVec 8) : flagDefined o = true ↔ o.toNat ∈ [0x03, 0x11, 0x15, 0x18, 0x20] := by
  simp [flagDefined, BitVec.toNat_eq, or_assoc]

/-- The three checks of R80, each as a proposition. -/
theorem CommandFields.legal_iff (c : CommandFields) :
    c.legal = true ↔ c.rsv = 0 ∧ opcodeAssigned c.opc = true ∧ (c.f = false ∨ flagDefined c.opc = true) := by
  simp [CommandFields.legal, CommandFields.reservedClear, CommandFields.flagAllowed, and_assoc]

/-! ## The legality check and the decoder -/

/-- Every opcode R83 does not reserve has a row in the opcode map (R81). -/
theorem exists_row_of_opcodeAssigned {o : BitVec 8} (h : opcodeAssigned o = true) : ∃ r ∈ opcodeMap, r.opc = o := by
  have hrange := (opcodeAssigned_iff o).1 h
  simp only [opcodeMap, List.exists_mem_cons_iff, List.not_mem_nil, false_and, exists_false, BitVec.toNat_eq,
    BitVec.reduceToNat]
  omega

/-- A row holds a command for F = 0, and for F = 1 where its opcode defines the flag (R81, R82). -/
theorem command_isSome_of_row :
    ∀ r ∈ opcodeMap, ∀ f : Bool, f = false ∨ flagDefined r.opc = true → (r.command f).isSome = true := by
  decide

/-- The word of every command is legal. -/
theorem legal_encode (i : Instr) : (commandFields (encode i)).legal = true := by cases i <;> rfl

/-- A legal word is the word of some command: that of its opcode's row and its flag. -/
theorem exists_encode_of_legal {w : Word} (h : (commandFields w).legal = true) : ∃ i, w = encode i := by
  obtain ⟨hrsv, hopc, hflag⟩ := (commandFields w).legal_iff.1 h
  obtain ⟨r, hr, hrow⟩ := exists_row_of_opcodeAssigned hopc
  obtain ⟨i, hi⟩ := Option.isSome_iff_exists.1 (command_isSome_of_row r hr (commandFields w).f (hrow ▸ hflag))
  refine ⟨i, ?_⟩
  rw [encode_of_row r hr (commandFields w).f i hi, hrow, ← hrsv, word_commandFields]

/-- The words the decoder takes are the legal ones: the words of the opcode table (R80 to R83). -/
theorem legal_iff_exists_decode (w : Word) : (commandFields w).legal = true ↔ ∃ i, decode w = .ok i := by
  constructor
  · intro h
    obtain ⟨i, rfl⟩ := exists_encode_of_legal h
    exact ⟨i, decode_encode i⟩
  · rintro ⟨i, hi⟩
    rw [eq_encode_of_decode hi]
    exact legal_encode i

end Sys2Proof

namespace Sys2Proof.Machine

/-- Settles O3: the three checks in numbers, their agreement with the decoder, and the completion of a word that the
decoder rejects. -/
theorem legalWordsNameCommandsOthersEndIllegal : Obligations.LegalWordsNameCommandsOthersEndIllegal := by
  intro w opc legal
  have hlegal : (commandFields w).legal = true ↔ legal :=
    (commandFields w).legal_iff.trans
      (and_congr_right' (and_congr (opcodeAssigned_iff _) (or_congr_right (flagDefined_iff _))))
  have hdecode : legal ↔ ∃ i, decode w = .ok i := hlegal.symm.trans (legal_iff_exists_decode w)
  refine ⟨rfl, hlegal, hdecode, ?_⟩
  rintro s hb hl rfl hillegal
  cases he : decode s.pending with
  | ok i => exact absurd (hdecode.2 ⟨i, he⟩) hillegal
  | error e => exact step_of_due_illegal hb hl he

end Sys2Proof.Machine
end

section
/-! The interrupt line (R272): raised by a completion when IE is 1, and low once DONE or IE is 0. -/

namespace Sys2Proof.Machine

section
variable {s : State}

theorem State.irq_of_not_done (h : s.done = false) : s.irq = false := by rw [State.irq, h, Bool.false_and]

theorem State.irq_of_not_ie (h : s.ie = false) : s.irq = false := by rw [State.irq, h, Bool.and_false]

/-- While DONE is 1 the line is IE. -/
theorem State.irq_of_done (h : s.done = true) : s.irq = s.ie := by rw [State.irq, h, Bool.true_and]

end

/-- A command completes with DONE set, and keeps IE (R112). -/
theorem irq_of_exec {i : Instr} {s t : State} (h : exec i s = .next t) : t.irq = s.ie := by
  obtain ⟨-, -, -, -, hdone, -⟩ := whoWritesTheStatusFields i s t h
  obtain ⟨-, -, -, -, -, -, -, hie, -, -⟩ := unlistedRegistersAreKept i s t h
  rw [State.irq_of_done hdone, hie]

/-- An illegal word completes with DONE set too, and keeps IE (R261). -/
theorem irq_of_completeIllegal {s t : State} (h : completeIllegal s = .next t) : t.irq = s.ie := by
  obtain rfl : s.retire .illegal = t := Host.Outcome.next.inj h
  exact State.irq_of_done (s.retire_done .illegal)

/-- A write of CTRL that does not set IE leaves IE clear, be it a reset or not (R22, R290). -/
theorem writeCtrl_ie_of_clear (s : State) {v : Word} (h : v.getLsbD 1 = false) : (s.writeCtrl v).ie = false := by
  cases hsrst : v.getLsbD 0 with
  | false =>
    rw [writeCtrl_of_no_srst s hsrst]
    exact h
  | true =>
    rw [State.writeCtrl, if_pos hsrst]
    rfl

/-- Settles O27: the completions set DONE and keep IE; each of the host's four ways clears DONE or IE. -/
theorem interruptFollowsDoneAndEnable : Obligations.InterruptFollowsDoneAndEnable := by
  refine ⟨fun _ => rfl, fun _ _ _ => irq_of_exec, fun _ _ => irq_of_completeIllegal, fun s v hv => ?clearDone,
    fun s w => ?issue, fun s v hv => ?clearEnable, fun s => ?reset⟩
  case clearDone => exact State.irq_of_not_done (by simp [State.writeReg, hv])
  case issue => exact State.irq_of_not_done (s.issue_done w)
  case clearEnable => exact State.irq_of_not_ie (writeCtrl_ie_of_clear s hv)
  case reset => exact State.irq_of_not_done rfl

end Sys2Proof.Machine
end

section
/-! Reset (R290 to R292): each source gives the reset state, busy or idle; what the registers read there (R291); and that
it meets the invariant. -/

namespace Sys2Proof.Machine

/-! ## The reset sources -/

/-- A write of CTRL with SRST set resets an idle block (R22, R290). -/
theorem writeCtrl_of_srst (s : State) {v : Word} (h : v.getLsbD 0 = true) : s.writeCtrl v = s.resetBlock := if_pos h

/-- A write of CTRL with SRST set resets a busy block too (R111, R118). -/
theorem writeBusy_ctrl_of_srst (s : State) {v : Word} (h : v.getLsbD 0 = true) :
    s.writeBusy (regOffset .ctrl) v = s.resetBlock := by
  rw [State.writeBusy, if_neg (by decide), if_pos ⟨rfl, h⟩]

/-- On the bus the two are one: SRST resets the block whether or not a command is in flight (R292). -/
theorem busWrite_ctrl_of_srst (s : State) {v : Word} (h : v.getLsbD 0 = true) :
    s.busWrite (regOffset .ctrl) v = { s.resetBlock with answer := .written } := by
  unfold State.busWrite
  split
  next => rw [writeBusy_ctrl_of_srst s h]
  next => rw [writeIdle_regOffset, State.writeReg, writeCtrl_of_srst s h]

/-- Settles O28: while no completion is due, the step is the reset input's event or the write of CTRL. -/
theorem everyResetSourceResetsTheWholeBlock : Obligations.EveryResetSourceResetsTheWholeBlock := by
  refine fun s rest hdue => ⟨fun hin => ?resetInput, fun a v hin hoff hacc hop hsrst => ?srst⟩
  case resetInput =>
    rw [step_host (fun ⟨hb, hl⟩ => hdue hb hl) hin, hostStep, State.resetBlock_eq]
    rfl
  case srst =>
    have hctrl : windowOffset a.addr = some (regOffset .ctrl) := hoff
    rw [step_access hdue hin hctrl, windowAccess_write hacc hop, busWrite_ctrl_of_srst _ hsrst, State.resetBlock_eq]
    rfl

/-! ## The reset state -/

/-- With no byte listed every byte string reads as zeros. -/
theorem Memory.readBytes_nil (a n : Nat) : Memory.readBytes [] a n = zeros n := by
  induction n generalizing a with
  | zero => rfl
  | succ n ih => rw [Memory.readBytes, ih]; rfl

/-- With no byte listed every word of an array reads 0. -/
theorem Memory.readWord_nil (a : Nat) : Memory.readWord [] a = 0 := by
  rw [Memory.readWord, Memory.readBytes_nil]
  rfl

/-- After reset every register but ID and NODECNT reads 0: the array registers because no byte is listed (R291). -/
theorem readReg_reset {r : Reg} (hid : r ≠ .id) (hcnt : r ≠ .nodeCnt) : State.reset.readReg r = 0 := by
  cases r with
  | id => exact absurd rfl hid
  | nodeCnt => exact absurd rfl hcnt
  | mac i | frameD i | buf i | reasm i => exact Memory.readWord_nil _
  | _ => rfl

/-- Settles O29: the registers and the key array read as an empty list of bytes does, and DONE is 0. -/
theorem resetValuesOfEveryRegister : Obligations.ResetValuesOfEveryRegister :=
  ⟨rfl, rfl, fun _ => readReg_reset, Memory.readBytes_nil keyBase 24, rfl, State.irq_of_not_done rfl, rfl, rfl⟩

/-- Settles O30: the base case of the invariant that every step keeps. -/
theorem invariantHoldsAtReset : Obligations.InvariantHoldsAtReset := reset_inv

end Sys2Proof.Machine
end
